-- ==== Sys2Proof/Word.lean ====
section
/-! DEFINITION. Word.lean: the word types of the block (spec 00_scope.md R8 to R11).

A frame is one 160-bit word (R71), a float is its 32-bit pattern (R101: every pattern is a value), a time is a
natural number of microseconds (R7 `TIME_UNIT`, R10), below `2 ^ 64` in the block's counter (R24). -/

namespace Sys2Proof

/-- One byte of a frame (R9). -/
abbrev Byte := BitVec 8

/-- An unsigned 32-bit integer (R10). -/
abbrev U32 := BitVec 32

/-- A binary32 value, held as its bit pattern (R11, R101); `asF32` and `bits` are the identity. -/
abbrev F32 := BitVec 32

/-- A frame as the 160-bit word `B[0] ‖ … ‖ B[19]` (R71): `B[0]` stands in bits 159:152. -/
abbrev Frame := BitVec 160

end Sys2Proof
end

