-- ==== Sys2Proof/Config.lean ====
section
/-! DEFINITION. Config.lean: what the spec leaves open, as constants with no body.

Nothing in Lean can evaluate them or prove a value of them, so a theorem about the model holds for every choice.
What the spec does say of them (the named properties of R110, the finite grid of R181) is built round these raw
constants in Machine/Transcendental.lean and Machine/Grid.lean. The numeric parameters that have a default value
(R7) stand in Machine/Params.lean. The reference instance of R115 is no part of the block (log 24). -/

namespace Sys2Proof.Config

/-- Free value (R109, U6): the pattern the n-th NaN result of a run is made from. -/
opaque nanDraw : Nat → BitVec 32

/-- OPEN parameter `FN_ATAN2` (R110, D8) before the named properties are imposed: operands y, x. -/
opaque atan2Raw : F32 → F32 → F32

/-- OPEN parameter `FN_SIN` (R110, D8) before the named properties are imposed. -/
opaque sinRaw : F32 → F32

/-- OPEN parameter `FN_COS` (R110, D8) before the named properties are imposed. -/
opaque cosRaw : F32 → F32

/-- OPEN parameter `FN_POW` (R110, D8) before the named properties are imposed: operands base, exponent. -/
opaque powRaw : F32 → F32 → F32

/-- OPEN parameter `GRID_ALPHA[r][c]` (R181, D10) before finiteness and the centre value are imposed. -/
opaque gridAlphaRaw : Fin 3 → Fin 3 → F32

/-- OPEN parameter `GRID_BETA[r][c]` (R181, D10) before finiteness and the centre value are imposed. -/
opaque gridBetaRaw : Fin 3 → Fin 3 → F32

/-- OPEN parameter `EVENT_LATENCY_MAX` (D14): `none` is "unbounded", `some m` a bound of m microseconds. -/
opaque eventLatencyMax : Option Nat

end Sys2Proof.Config
end

