-- ==== Sys2Proof/Machine/Params.lean ====
section
/-! DEFINITION. Machine/Params.lean: the named parameters that have a default value (00_scope.md R7, 40_numerics.md
R114). Every rule of the model uses the parameter by name; the value is the document's literal (log 14). -/

namespace Sys2Proof.Config

/-- `DRIVE_SENTINEL` (R7): the control byte that means drive. -/
def driveSentinel : BitVec 8 := 0xFF
/-- `HIST_MAX_LEN` (R7). -/
abbrev histMaxLen : Nat := 20
/-- `HIST_KEEP` = `HIST_MAX_LEN` + 1 (R7): what the trim of R152 leaves before the push. -/
abbrev histKeep : Nat := histMaxLen + 1
/-- `HIST_CAP` = `HIST_MAX_LEN` + 2 (R7, R52): the entries of storage. -/
abbrev histCap : Nat := histMaxLen + 2
/-- `HIST_MAX_AGE` (R7): 1000 ms. -/
abbrev histMaxAge : Nat := 1000000
/-- `WDT_TIMEOUT` (R7): 300 ms. -/
abbrev wdtTimeout : Nat := 300000
/-- `WDT_PERIOD` (R7): 50 ms. -/
abbrev wdtPeriod : Nat := 50000
/-- `TIME_WIDTH` (R7): the counter has 64 bits, so no time reaches this value (R24). -/
abbrev timeLimit : Nat := 2 ^ 64
/-- `V_MAX` = 1200.0 (R114). -/
def vMax : F32 := 0x44960000
/-- `TRANS_SCALE` = 0.5 (R114). -/
def transScale : F32 := 0x3F000000
/-- `ROT_DIV` = 20.0 (R114). -/
def rotDiv : F32 := 0x41A00000
/-- `IDW_P_LO` = 1.5 (R114). -/
def idwPLo : F32 := 0x3FC00000
/-- `IDW_P_HI` = 4.5 (R114). -/
def idwPHi : F32 := 0x40900000
/-- `SAFEDIV_SENTINEL`, the binary32 nearest 1e13 (R107, R114). -/
def safedivSentinel : F32 := 0x551184E7
/-- `SYMB_SCALE` = 90.0 (R114). -/
def symbScale : F32 := 0x42B40000
/-- `RAD2DEG`, the binary32 nearest 180/π (R114). -/
def rad2deg : F32 := 0x42652EE1
/-- π₃₂, the binary32 nearest π (R110). -/
def pi32 : F32 := 0x40490FDB
/-- π₃₂/2 (R110). -/
def halfPi32 : F32 := 0x3FC90FDB
/-- +0.0 (R114). -/
def zero : F32 := 0x00000000
/-- 1.0 (R114). -/
def one : F32 := 0x3F800000
/-- 2.0 (R114). -/
def two : F32 := 0x40000000
/-- 90.0, the grid step (R114, R182). -/
def ninety : F32 := 0x42B40000

/-- `GRID_PHI[r]` = −90, 0, 90 (R7, R181). -/
def gridPhi (r : Fin 3) : F32 :=
  if r = 0 then 0xC2B40000 else if r = 1 then 0x00000000 else 0x42B40000

/-- `GRID_THETA[c]` = −90, 0, 90 (R7, R181). -/
def gridTheta (c : Fin 3) : F32 :=
  if c = 0 then 0xC2B40000 else if c = 1 then 0x00000000 else 0x42B40000

end Sys2Proof.Config
end

