-- ==== Sys2Proof/Machine/Float.lean ====
section
/-! DEFINITION. Machine/Float.lean: the binary32 arithmetic of the datapath (40_numerics.md R101 to R107, R109, R111 to
R113). Each primitive computes the exact result as an integer times a power of two and rounds once (R102); a NaN
result is drawn (R109), so a primitive also advances the counter of draws. -/

namespace Sys2Proof

/-! ### Format (R101) -/

/-- Sign, bit 31. -/
def fSign (a : F32) : Bool := decide (2 ^ 31 ≤ a.toNat)
/-- Biased exponent, bits 30:23. -/
def fExpo (a : F32) : Nat := a.toNat / 2 ^ 23 % 2 ^ 8
/-- Fraction, bits 22:0. -/
def fFrac (a : F32) : Nat := a.toNat % 2 ^ 23
/-- Exponent and fraction, bits 30:0: the order of magnitudes is the order of these numbers. -/
def fMag (a : F32) : Nat := a.toNat % 2 ^ 31

/-- Exponent 255 with a non-zero fraction. -/
def isNaN (a : F32) : Bool := fExpo a == 255 && fFrac a != 0
/-- ±∞: exponent 255 with fraction 0. -/
def isInf (a : F32) : Bool := fExpo a == 255 && fFrac a == 0
/-- ±0. -/
def isZero (a : F32) : Bool := fMag a == 0
/-- Neither NaN nor ±∞. -/
def isFinite (a : F32) : Bool := fExpo a != 255

/-- The integer significand of a finite value: the hidden bit is 1 unless the exponent is 0 (subnormals, R111). -/
def fSig (a : F32) : Nat := if fExpo a = 0 then fFrac a else 2 ^ 23 + fFrac a
/-- The exponent of the significand's unit: a finite value is ± `fSig a` · 2 ^ `fUnit a`. -/
def fUnit (a : F32) : Int := max (fExpo a : Int) 1 - 150

/-- The value with the given sign and magnitude bits (bits 30:0 of `mag`). -/
def fPack (sign : Bool) (mag : Nat) : F32 := BitVec.ofNat 32 (sign.toNat * 2 ^ 31 + mag % 2 ^ 31)

/-- The magnitude bits of +∞. -/
def infMag : Nat := 0x7F800000

/-! ### Rounding (R102) -/

/-- n / 2 ^ k rounded to the nearest integer, ties to even. -/
def roundShift (n k : Nat) : Nat :=
  let q := n / 2 ^ k
  let r := n % 2 ^ k
  if 2 ^ k < 2 * r ∨ (2 * r = 2 ^ k ∧ q % 2 = 1) then q + 1 else q

/-- The magnitude bits of `m · 2 ^ e` rounded to binary32, to nearest with ties to even; overflow gives ∞. The unit of
the result is 2 ^ q with q the larger of the leading bit's place less 23 and −149 (subnormals, R111). -/
def roundMag (m : Nat) (e : Int) : Nat :=
  if m = 0 then 0
  else
    let q : Int := max (e + (Nat.log2 m : Int) - 23) (-149)
    let sig := if q ≤ e then m * 2 ^ (e - q).toNat else roundShift m (q - e).toNat
    min ((q + 149).toNat * 2 ^ 23 + sig) infMag

/-- ± `m · 2 ^ e` as a binary32 value. -/
def fRound (sign : Bool) (m : Nat) (e : Int) : F32 := fPack sign (roundMag m e)

/-! ### NaN results (R109) -/

/-- Computations that draw NaN patterns: the state is the counter of draws. -/
abbrev Draw := StateM Nat

/-- Run a computation at a value of the counter: its result and the counter after it. -/
def runDraw {α : Type} (d : Draw α) (n : Nat) : α × Nat := d n

/-- A NaN made from 32 free bits: every NaN pattern is made from some bits (a zero fraction is replaced by 1). -/
def anyNaN (u : BitVec 32) : F32 := fPack (fSign u) (infMag + (if fFrac u = 0 then 1 else fFrac u))

/-- The next NaN pattern (log 10). -/
def drawNaN : Draw F32 := fun n => (anyNaN (Config.nanDraw n), n + 1)

/-! ### Sign operations (R105) -/

/-- `fneg`: flips bit 31, on every value. -/
def fneg (a : F32) : F32 := fPack (!fSign a) (fMag a)
/-- `fabs`: clears bit 31, on every value. -/
def fabs (a : F32) : F32 := fPack false (fMag a)

/-! ### Basic operations (R103), square root (R104)

`…With nan` is the operation with the NaN pattern it answers, should it answer a NaN. -/

/-- The exact value of a finite float in units of 2 ^ e, for e at most its own unit. -/
def scaled (a : F32) (e : Int) : Int :=
  let m : Int := ((fSig a * 2 ^ (fUnit a - e).toNat : Nat) : Int)
  if fSign a then -m else m

/-- The sum of two finite values, rounded once; an exact zero sum is +0 except for (−0) + (−0) (R103). -/
def addFinite (a b : F32) : F32 :=
  let e := min (fUnit a) (fUnit b)
  let v := scaled a e + scaled b e
  if v = 0 then fPack (fSign a && fSign b) 0 else fRound (decide (v < 0)) v.natAbs e

/-- `fadd` with its NaN pattern given (R103). -/
def faddWith (nan a b : F32) : F32 :=
  if isNaN a || isNaN b then nan
  else if isInf a then (if isInf b && (fSign a != fSign b) then nan else a)
  else if isInf b then b
  else addFinite a b

/-- `fmul` with its NaN pattern given (R103). -/
def fmulWith (nan a b : F32) : F32 :=
  let sign := fSign a != fSign b
  if isNaN a || isNaN b then nan
  else if isInf a || isInf b then (if isZero a || isZero b then nan else fPack sign infMag)
  else fRound sign (fSig a * fSig b) (fUnit a + fUnit b)

/-- `fdiv` with its NaN pattern given (R103): the quotient of the significands to 26 bits or more, with a sticky last
bit, rounds as the exact quotient does. -/
def fdivWith (nan a b : F32) : F32 :=
  let sign := fSign a != fSign b
  if isNaN a || isNaN b then nan
  else if isInf a then (if isInf b then nan else fPack sign infMag)
  else if isInf b then fPack sign 0
  else if isZero b then (if isZero a then nan else fPack sign infMag)
  else
    let n := fSig a * 2 ^ 50
    let sticky := if n % fSig b = 0 then 0 else 1
    fRound sign (2 * (n / fSig b) + sticky) (fUnit a - fUnit b - 51)

/-- The integer square root below `(acc + 2 ^ k) `, one bit of the root at a time from bit k − 1 down. -/
def isqrtBits (n : Nat) : Nat → Nat → Nat
  | 0, acc => acc
  | k + 1, acc =>
    let t := acc + 2 ^ k
    if t * t ≤ n then isqrtBits n k t else isqrtBits n k acc

/-- The integer square root of an n below 2 ^ 80. -/
def isqrt (n : Nat) : Nat := isqrtBits n 40 0

/-- `fsqrt` with its NaN pattern given (R104): the significand is scaled by 2 ^ 54 or 2 ^ 55 so that the unit's exponent is
even; the root has 27 bits or more and a sticky last bit. -/
def fsqrtWith (nan a : F32) : F32 :=
  if isNaN a then nan
  else if isZero a then a
  else if fSign a then nan
  else if isInf a then a
  else
    let k : Nat := if (fUnit a) % 2 = 0 then 54 else 55
    let n := fSig a * 2 ^ k
    let r := isqrt n
    let sticky := if r * r = n then 0 else 1
    fRound false (2 * r + sticky) ((fUnit a - k) / 2 - 1)

/-- `fadd(a, b)` (R103). -/
def fadd (a b : F32) : Draw F32 := do return faddWith (← drawNaN) a b
/-- `fsub(a, b)` (R103): a + (−b), the IEEE difference. -/
def fsub (a b : F32) : Draw F32 := do return faddWith (← drawNaN) a (fneg b)
/-- `fmul(a, b)` (R103). -/
def fmul (a b : F32) : Draw F32 := do return fmulWith (← drawNaN) a b
/-- `fdiv(a, b)` (R103). -/
def fdiv (a b : F32) : Draw F32 := do return fdivWith (← drawNaN) a b
/-- `fsqrt(a)` (R104). -/
def fsqrt (a : F32) : Draw F32 := do return fsqrtWith (← drawNaN) a

/-- `psqrt(a) = fsqrt(fabs(a))` (R106). -/
def psqrt (a : F32) : Draw F32 := fsqrt (fabs a)

/-- `toF32(n)` (R113): exact for the counts 1 to 23 the filters use. -/
def toF32 (n : Nat) : F32 := fRound false n 0

end Sys2Proof
end

