-- ==== Sys2Proof/Machine/Crc.lean ====
section
/-! DEFINITION. Machine/Crc.lean: the bytes of a frame (R9, R71) and the CRC32 validator (41_frame_validator.md R130
to R132). -/

namespace Sys2Proof

/-- `B[k]` of a frame, for k from 0 to 19 (R9, R71): bits 159−8k down to 152−8k. -/
def frameByte (F : Frame) (k : Nat) : Byte := F.extractLsb' (152 - 8 * k) 8

/-- `BE32(B, k)` (R9): bytes k to k+3, `B[k]` the most significant. -/
def be32 (F : Frame) (k : Nat) : U32 :=
  frameByte F k ++ frameByte F (k + 1) ++ frameByte F (k + 2) ++ frameByte F (k + 3)

/-- The first n bytes of a frame, in wire order. -/
def frameBytes (F : Frame) (n : Nat) : List Byte := (List.range n).map (frameByte F)

/-- The CRC parameters of R130 in reflected form (the shift register shifts right). -/
structure CrcVariant where
  revPoly : U32
  init : U32
  xorOut : U32
deriving DecidableEq, Repr

/-- `CRC_VARIANT`, default CRC-32/ISO-HDLC (R130, D5; log 13). -/
def Config.crcVariant : CrcVariant := ⟨0xEDB88320, 0xFFFFFFFF, 0xFFFFFFFF⟩

/-- One shift of the register (R131). -/
def crcShift (v : CrcVariant) (c : U32) : U32 :=
  if c.getLsbD 0 then (c >>> 1) ^^^ v.revPoly else c >>> 1

/-- n shifts of the register. -/
def crcShifts (v : CrcVariant) : Nat → U32 → U32
  | 0, c => c
  | n + 1, c => crcShifts v n (crcShift v c)

/-- The register after one more byte (R131). -/
def crcByte (v : CrcVariant) (c : U32) (b : Byte) : U32 := crcShifts v 8 (c ^^^ b.setWidth 32)

/-- `crc32` of a sequence of bytes, in wire order (R131). -/
def crc32 (v : CrcVariant) (bs : List Byte) : U32 := bs.foldl (crcByte v) v.init ^^^ v.xorOut

/-- The checksum the block computes for a frame: the CRC of `B[0..15]` (R131). -/
def crcComputed (F : Frame) : U32 := crc32 Config.crcVariant (frameBytes F 16)

/-- The checksum field of a frame (R135). -/
def crcField (F : Frame) : U32 := be32 F 16

/-- `crc_ok` (R132). -/
def crcOk (F : Frame) : Bool := crcComputed F == crcField F

/-- The frame with the given fields (R70, R71). -/
def mkFrame (ctl model : Byte) (rsv : BitVec 16) (x y z : F32) (crc : U32) : Frame :=
  ctl ++ model ++ rsv ++ x ++ y ++ z ++ crc

/-- The frame with the given fields and the checksum the sender computes (`crc=auto` of R80). -/
def sealFrame (ctl model : Byte) (rsv : BitVec 16) (x y z : F32) : Frame :=
  mkFrame ctl model rsv x y z (crcComputed (mkFrame ctl model rsv x y z 0))

end Sys2Proof
end

