-- ==== Sys2Proof/Syntax.lean ====
section
/-! DEFINITION. Syntax.lean: the block's instructions, one constructor for each row of spec/opcode_table.json.

The operands of a frame row are the fields of R70 that the row does not fix, taken without transformation (R72).
`rsv` is read by nothing but the CRC (R136); it is kept so that an instruction determines its frame. -/

namespace Sys2Proof

/-- The events (R78) and the frame classes of a FRAME event (R74 to R76). -/
inductive Instr where
  /-- FRAME, event kind 0b00: the frame rows classify its payload (R74, R221). -/
  | frame (F : Frame)
  /-- DRIVE.M0, model byte 0x00 (R205). -/
  | driveM0 (rsv : BitVec 16) (x y z : F32)
  /-- DRIVE.M1, model byte 0x01 (R206). -/
  | driveM1 (rsv : BitVec 16) (x y z : F32)
  /-- DRIVE.M2, model byte 0x02 (R207). -/
  | driveM2 (rsv : BitVec 16) (x y z : F32)
  /-- DRIVE.M3, model byte 0x03 (R208). -/
  | driveM3 (rsv : BitVec 16) (x y z : F32)
  /-- DRIVE.M4, model byte 0x04 (R209). -/
  | driveM4 (rsv : BitVec 16) (x y z : F32)
  /-- DRIVE.M5, model byte 0x05 (R210). -/
  | driveM5 (rsv : BitVec 16) (x y z : F32)
  /-- DRIVE.M6, model byte 0x06 (R211). -/
  | driveM6 (rsv : BitVec 16) (x y z : F32)
  /-- DRIVE.M7, model byte 0x07 (R212). -/
  | driveM7 (rsv : BitVec 16) (x y z : F32)
  /-- DRIVE.M8, model byte 0x08 (R213). -/
  | driveM8 (rsv : BitVec 16) (x y z : F32)
  /-- DRIVE.DFLT, model byte 0x09 (R217). -/
  | driveDflt09 (rsv : BitVec 16) (x y z : F32)
  /-- DRIVE.DFLT, model byte 0x0A (R217). -/
  | driveDflt0A (rsv : BitVec 16) (x y z : F32)
  /-- DRIVE.DFLT, model byte 0x0B (R217). -/
  | driveDflt0B (rsv : BitVec 16) (x y z : F32)
  /-- DRIVE.M12, model byte 0x0C (R214). -/
  | driveM12 (rsv : BitVec 16) (x y z : F32)
  /-- DRIVE.M13, model byte 0x0D (R215). -/
  | driveM13 (rsv : BitVec 16) (x y z : F32)
  /-- DRIVE.M14, model byte 0x0E (R216). -/
  | driveM14 (rsv : BitVec 16) (x y z : F32)
  /-- DRIVE.DFLT, model byte 0x0F (R217). -/
  | driveDflt0F (rsv : BitVec 16) (x y z : F32)
  /-- DRIVE.DFLT, model bytes 0x10 to 0x1F: `lo` is the byte's low 4 bits (R217). -/
  | driveDflt10 (lo : BitVec 4) (rsv : BitVec 16) (x y z : F32)
  /-- DRIVE.DFLT, model bytes 0x20 to 0x3F: `lo` is the byte's low 5 bits (R217). -/
  | driveDflt20 (lo : BitVec 5) (rsv : BitVec 16) (x y z : F32)
  /-- DRIVE.DFLT, model bytes 0x40 to 0x7F: `lo` is the byte's low 6 bits (R217). -/
  | driveDflt40 (lo : BitVec 6) (rsv : BitVec 16) (x y z : F32)
  /-- DRIVE.DFLT, model bytes 0x80 to 0xFF: `lo` is the byte's low 7 bits (R217). -/
  | driveDflt80 (lo : BitVec 7) (rsv : BitVec 16) (x y z : F32)
  /-- STOP: valid checksum, `ctl` not 0xFF; the other fields are decoded and unused (R218). -/
  | stop (ctl model : Byte) (rsv : BitVec 16) (x y z : F32)
  /-- BADCRC: the checksum field is not the CRC of the first 16 bytes (R219). -/
  | badcrc (ctl model : Byte) (rsv : BitVec 16) (x y z : F32) (crc : U32)
  /-- TICK, event kind 0b01, internal (R78, R231). -/
  | tick
  /-- SHUTDOWN, event kind 0b10 (R246). -/
  | shutdown
  /-- RESET, event kind 0b11 (R247). -/
  | reset
deriving DecidableEq, Repr

/-- The algorithm column of the model table (R200); ShepardIDW carries which of its two powers it uses (R185). -/
inductive Algorithm where
  | bilinear
  | shepardLo
  | shepardHi
  | symbolicModelB
deriving DecidableEq, Repr

/-- The filter column of the model table (R174, R200). -/
inductive Filter where
  | none
  | sma
  | ema
deriving DecidableEq, Repr

/-- The class of a frame (R74). -/
inductive FrameClass where
  | badcrc
  | drive (modelCode : Byte)
  | stop
deriving DecidableEq, Repr

/-- A decoded frame (R15, R137): the data model's ControlSample. -/
structure ControlSample where
  drive : Bool
  modelCode : Byte
  x : F32
  y : F32
  z : F32
deriving DecidableEq, Repr

/-- An event on the block's input (R78): its 2-bit kind code and its payload (read by FRAME only). -/
structure EventWord where
  kind : BitVec 2
  payload : Frame
deriving DecidableEq, Repr

/-- Is the instruction one of the frame rows (a class of R74), as opposed to an event row (R78)? -/
def Instr.isFrameRow : Instr → Bool
  | .frame _ => false
  | .tick => false
  | .shutdown => false
  | .reset => false
  | .stop _ _ _ _ _ _ => true
  | .badcrc _ _ _ _ _ _ _ => true
  | .driveM0 _ _ _ _ => true
  | .driveM1 _ _ _ _ => true
  | .driveM2 _ _ _ _ => true
  | .driveM3 _ _ _ _ => true
  | .driveM4 _ _ _ _ => true
  | .driveM5 _ _ _ _ => true
  | .driveM6 _ _ _ _ => true
  | .driveM7 _ _ _ _ => true
  | .driveM8 _ _ _ _ => true
  | .driveDflt09 _ _ _ _ => true
  | .driveDflt0A _ _ _ _ => true
  | .driveDflt0B _ _ _ _ => true
  | .driveM12 _ _ _ _ => true
  | .driveM13 _ _ _ _ => true
  | .driveM14 _ _ _ _ => true
  | .driveDflt0F _ _ _ _ => true
  | .driveDflt10 _ _ _ _ _ => true
  | .driveDflt20 _ _ _ _ _ => true
  | .driveDflt40 _ _ _ _ _ => true
  | .driveDflt80 _ _ _ _ _ => true

end Sys2Proof
end

