-- ==== Sys2Proof/WellFormed.lean ====
section
/-! DEFINITION. WellFormed.lean: the instructions a frame or an event can stand for (30_encoding.md R74 to R78). A drive
row's model byte is fixed by its constructor, so only STOP and BADCRC carry a check. -/

namespace Sys2Proof

/-- STOP is not an instruction with the drive sentinel (R76, R218); BADCRC is not one with the right checksum (R219). -/
def Instr.wellFormed : Instr → Bool
  | .stop ctl _ _ _ _ _ => ctl != Config.driveSentinel
  | .badcrc ctl model rsv x y z crc => crcComputed (mkFrame ctl model rsv x y z crc) != crc
  | .frame _ => true
  | .driveM0 _ _ _ _ => true
  | .driveM1 _ _ _ _ => true
  | .driveM2 _ _ _ _ => true
  | .driveM3 _ _ _ _ => true
  | .driveM4 _ _ _ _ => true
  | .driveM5 _ _ _ _ => true
  | .driveM6 _ _ _ _ => true
  | .driveM7 _ _ _ _ => true
  | .driveM8 _ _ _ _ => true
  | .driveDflt09 _ _ _ _ => true
  | .driveDflt0A _ _ _ _ => true
  | .driveDflt0B _ _ _ _ => true
  | .driveM12 _ _ _ _ => true
  | .driveM13 _ _ _ _ => true
  | .driveM14 _ _ _ _ => true
  | .driveDflt0F _ _ _ _ => true
  | .driveDflt10 _ _ _ _ _ => true
  | .driveDflt20 _ _ _ _ _ => true
  | .driveDflt40 _ _ _ _ _ => true
  | .driveDflt80 _ _ _ _ _ => true
  | .tick => true
  | .shutdown => true
  | .reset => true

end Sys2Proof
end

