-- ==== Sys2Proof/Decode.lean ====
section
/-! DEFINITION. Decode.lean: the frame parser (41_frame_validator.md R133 to R138), the opcode map (30_encoding.md R74 to
R79), then the encoder written from the same tables, and the pseudo-instructions of R80. -/

namespace Sys2Proof

/-! ### Fields (R133 to R136) -/

/-- The control byte `B[0]` (R133). -/
def ctlOf (F : Frame) : Byte := frameByte F 0
/-- The model selector `B[1]`, verbatim (R133). -/
def modelOf (F : Frame) : Byte := frameByte F 1
/-- The reserved field `B[2..3]` (R136). -/
def rsvOf (F : Frame) : BitVec 16 := frameByte F 2 ++ frameByte F 3
/-- The raw x axis (R134). -/
def xOf (F : Frame) : F32 := be32 F 4
/-- The raw y axis (R134). -/
def yOf (F : Frame) : F32 := be32 F 8
/-- The raw z axis (R134). -/
def zOf (F : Frame) : F32 := be32 F 12
/-- The `drive` bit (R133). -/
def driveOf (F : Frame) : Bool := ctlOf F == Config.driveSentinel

/-! ### Decoding -/

/-- `classify` (R74): the checksum first, then the control byte. -/
def classify (F : Frame) : FrameClass :=
  if !crcOk F then .badcrc
  else if driveOf F then .drive (modelOf F)
  else .stop

/-- The drive row of a model byte (R75): one row for each byte of 0x00 to 0x0F, four rows for the rest. -/
def driveInstr (m : Byte) (rsv : BitVec 16) (x y z : F32) : Instr :=
  match m.toNat with
  | 0 => .driveM0 rsv x y z
  | 1 => .driveM1 rsv x y z
  | 2 => .driveM2 rsv x y z
  | 3 => .driveM3 rsv x y z
  | 4 => .driveM4 rsv x y z
  | 5 => .driveM5 rsv x y z
  | 6 => .driveM6 rsv x y z
  | 7 => .driveM7 rsv x y z
  | 8 => .driveM8 rsv x y z
  | 9 => .driveDflt09 rsv x y z
  | 10 => .driveDflt0A rsv x y z
  | 11 => .driveDflt0B rsv x y z
  | 12 => .driveM12 rsv x y z
  | 13 => .driveM13 rsv x y z
  | 14 => .driveM14 rsv x y z
  | 15 => .driveDflt0F rsv x y z
  | n =>
    if n < 0x20 then .driveDflt10 (m.extractLsb' 0 4) rsv x y z
    else if n < 0x40 then .driveDflt20 (m.extractLsb' 0 5) rsv x y z
    else if n < 0x80 then .driveDflt40 (m.extractLsb' 0 6) rsv x y z
    else .driveDflt80 (m.extractLsb' 0 7) rsv x y z

/-- The frame row a frame belongs to, with its operands (R74 to R77): total, no frame is illegal. -/
def decodeFrame (F : Frame) : Instr :=
  match classify F with
  | .badcrc => .badcrc (ctlOf F) (modelOf F) (rsvOf F) (xOf F) (yOf F) (zOf F) (crcField F)
  | .drive m => driveInstr m (rsvOf F) (xOf F) (yOf F) (zOf F)
  | .stop => .stop (ctlOf F) (modelOf F) (rsvOf F) (xOf F) (yOf F) (zOf F)

/-- The event row of a kind code (R78): total. -/
def decodeEvent (e : EventWord) : Instr :=
  if e.kind = 0#2 then .frame e.payload
  else if e.kind = 1#2 then .tick
  else if e.kind = 2#2 then .shutdown
  else .reset

/-- The event row, with a FRAME's payload classified by the frame rows (R74, R78). -/
def decode (e : EventWord) : Instr :=
  match decodeEvent e with
  | .frame F => decodeFrame F
  | i => i

/-- Why a sequence of bytes or a frame has no decoding. -/
inductive DecodeError where
  /-- FRAME_IN was given n bytes and not 20 (R79, R282): refused. Safe: the spec gives it no meaning. -/
  | partialFrame (n : Nat)
  /-- `ChecksumMismatch` (R137): a normal outcome, reported as ERR_CHECKSUM. -/
  | checksumMismatch
deriving DecidableEq, Repr

/-- Twenty bytes in wire order as one frame word (R71, R79); any other number of bytes is rejected by name. -/
def packFrame (bs : List Byte) : Except DecodeError Frame :=
  if bs.length = 20 then
    .ok (bs.foldl (fun acc b => (acc <<< 8) ||| b.setWidth 160) 0)
  else .error (.partialFrame bs.length)

/-- The decoder on any bytes a FRAME_IN transaction could carry. -/
def decodeBytes (bs : List Byte) : Except DecodeError Instr := (packFrame bs).map decodeFrame

/-- `decode(B)` of R137: the ControlSample, or `ChecksumMismatch`. -/
def decodeSample (F : Frame) : Except DecodeError ControlSample :=
  if crcOk F then .ok ⟨driveOf F, modelOf F, xOf F, yOf F, zOf F⟩ else .error .checksumMismatch

/-! ### Encoding -/

/-- A drive instruction's model byte, reserved field and raw axes; `none` for every other instruction (R75). -/
def Instr.driveFields : Instr → Option (Byte × BitVec 16 × F32 × F32 × F32)
  | .driveM0 r x y z => some (0x00, r, x, y, z)
  | .driveM1 r x y z => some (0x01, r, x, y, z)
  | .driveM2 r x y z => some (0x02, r, x, y, z)
  | .driveM3 r x y z => some (0x03, r, x, y, z)
  | .driveM4 r x y z => some (0x04, r, x, y, z)
  | .driveM5 r x y z => some (0x05, r, x, y, z)
  | .driveM6 r x y z => some (0x06, r, x, y, z)
  | .driveM7 r x y z => some (0x07, r, x, y, z)
  | .driveM8 r x y z => some (0x08, r, x, y, z)
  | .driveDflt09 r x y z => some (0x09, r, x, y, z)
  | .driveDflt0A r x y z => some (0x0A, r, x, y, z)
  | .driveDflt0B r x y z => some (0x0B, r, x, y, z)
  | .driveM12 r x y z => some (0x0C, r, x, y, z)
  | .driveM13 r x y z => some (0x0D, r, x, y, z)
  | .driveM14 r x y z => some (0x0E, r, x, y, z)
  | .driveDflt0F r x y z => some (0x0F, r, x, y, z)
  | .driveDflt10 lo r x y z => some (0x1#4 ++ lo, r, x, y, z)
  | .driveDflt20 lo r x y z => some (0x1#3 ++ lo, r, x, y, z)
  | .driveDflt40 lo r x y z => some (0x1#2 ++ lo, r, x, y, z)
  | .driveDflt80 lo r x y z => some (0x1#1 ++ lo, r, x, y, z)
  | .frame _ => none
  | .stop _ _ _ _ _ _ => none
  | .badcrc _ _ _ _ _ _ _ => none
  | .tick => none
  | .shutdown => none
  | .reset => none

/-- The 160-bit frame of a frame row (R70, R75); zero for an event row that is no frame. -/
def encodeFrame (i : Instr) : Frame :=
  match i.driveFields with
  | some (m, rsv, x, y, z) => sealFrame Config.driveSentinel m rsv x y z
  | none =>
    match i with
    | .stop ctl model rsv x y z => sealFrame ctl model rsv x y z
    | .badcrc ctl model rsv x y z crc => mkFrame ctl model rsv x y z crc
    | .frame F => F
    | _ => 0

/-- The kind code of an instruction (R78). -/
def Instr.kind : Instr → BitVec 2
  | .tick => 1
  | .shutdown => 2
  | .reset => 3
  | _ => 0

/-- The event word of an instruction (R78); a non-frame event has no payload. -/
def encode (i : Instr) : EventWord := ⟨i.kind, encodeFrame i⟩

/-- The frame W8 of 95_test_vectors.md builds for a ControlSample: `rsv` = 0, `ctl` 0xFF for drive; for stop,
which W8 does not build, `ctl` 0x00 (DESIGN CHOICE, log 28). -/
def encodeSample (c : ControlSample) : Frame :=
  sealFrame (if c.drive then Config.driveSentinel else 0x00) c.modelCode 0 c.x c.y c.z

/-- The 20 bytes of a frame, `B[0]` first: what the sender puts on the wire. -/
def wireBytes (F : Frame) : List Byte := frameBytes F 20

/-! ### Pseudo-instructions (R80; log 23) -/

/-- `DRIVE m, x, y, z` (R80). -/
def pseudoDrive (m : Byte) (x y z : F32) : Frame := sealFrame 0xFF m 0 x y z
/-- `HALT` (R80): a STOP frame. -/
def pseudoHalt : Frame := sealFrame 0x00 0 0 0 0 0
/-- `CORRUPT k, b` (R80): byte `B[k]` (k from 0 to 19) replaced by b, the checksum field kept. -/
def corrupt (F : Frame) (k : Nat) (b : Byte) : Frame :=
  F ^^^ ((frameByte F k ^^^ b).setWidth 160 <<< (152 - 8 * k))

/-! ### The opcode table's words -/

/-- The bytes of a 32-bit word, most significant first (R51). -/
def wordBytes (w : U32) : List Byte :=
  [w.extractLsb' 24 8, w.extractLsb' 16 8, w.extractLsb' 8 8, w.extractLsb' 0 8]

/-- The frame whose 32-bit words, first word in bits 31:0 of `w`, are given by the low `nbits` bits of `w`, the words
above them zero; the checksum word, where `nbits` does not reach it, is the frame's own CRC, because every frame
row of the table but BADCRC has the precondition `crc_ok` (log 17). -/
def tableFrameBytes (nbits w : Nat) : List Byte :=
  let word (k : Nat) : U32 := BitVec.ofNat 32 ((w % 2 ^ nbits) >>> (32 * k))
  let head := wordBytes (word 0) ++ wordBytes (word 1) ++ wordBytes (word 2) ++ wordBytes (word 3)
  head ++ wordBytes (if nbits ≤ 128 then crc32 Config.crcVariant head else word 4)

/-- Is a row of spec/opcode_table.json of `nbits` bits an event kind (R78: two bits, in one byte)? Any other row is a
frame row (R74): one that fixes a header word, or one that fixes no bit at all (log 17). -/
def isEventRow (nbits : Nat) : Bool := decide (0 < nbits) && decide (nbits ≤ 8)

/-- What the decoder reads from the bits of a row of spec/opcode_table.json: an event kind (the kind in bits 1:0, an
all-zero payload) or a frame (log 17). -/
def decodeTableWord (nbits w : Nat) : Option Instr :=
  if isEventRow nbits then some (decodeEvent ⟨BitVec.ofNat 2 w, 0⟩)
  else (decodeBytes (tableFrameBytes nbits w)).toOption

end Sys2Proof
end

