-- ==== Sys2Proof/Machine/State.lean ====
section
/-! DEFINITION. Machine/State.lean: the block's state (10_state.md R20 to R34) as plain data, its outcomes and its reset.

The spec's elements are `now`, `hist`, `lastUpdate`, `nextDeadline`, `run`, `inq`, `gate` and `out`. `resetReq` is the
waiting request R247 implies. `gateTakenAt`, `holds`, `draws` and `env` are the model's own (log 5, log 10, log 2). -/

namespace Sys2Proof.Machine

/-- The run state (R28). -/
inductive RunState where
  | running
  | halted
deriving DecidableEq, Repr

/-- The actuation collaborator's mutual-exclusion gate as the block sees it (R30). -/
inductive Gate where
  | free
  | heldByActuator
deriving DecidableEq, Repr

/-- One entry of the history FIFO (R25): the normalised axes and the commit time of the drive frame, 160 bits (R52). -/
structure Entry where
  ax : F32
  ay : F32
  az : F32
  ts : Nat
deriving DecidableEq, Repr

/-- The status of a frame (R33, R202, R260). -/
inductive Status where
  | okDrive
  | okStop
  | errChecksum
deriving DecidableEq, Repr

/-- The commands and bracket markers of `ACT_OUT` (R33, R240). -/
inductive ActCmd where
  | gateAcq
  | gateRel
  | enable
  | setTrans (v : F32)
  | setRot (w : F32)
  | stop
  | releaseHw
deriving DecidableEq, Repr

/-- One transaction of the output trace: on `STATUS_OUT` or on `ACT_OUT` (R31, R33). -/
inductive Output where
  | status (c : Status)
  | act (c : ActCmd)
deriving DecidableEq, Repr

/-- What arrives at the block and waits in arrival order: a frame (R29) or a SHUTDOWN request (R246, log 7). -/
inductive InputEvent where
  | frame (F : Frame)
  | shutdown
deriving DecidableEq, Repr

/-- An arrived, not yet processed event with its arrival time (R29), and the order it takes when a tick is due at the
very instant it arrived (R55, U11: either order; log 9). -/
structure Pending where
  event : InputEvent
  arrival : Nat
  afterTick : Bool
deriving DecidableEq, Repr

/-- One time the actuation agent held the gate (R242, R284; log 5). -/
structure Hold where
  /-- When the agent took the gate. -/
  taken : Nat
  /-- When it gave the gate back. -/
  given : Nat
  /-- Was the operation that was due when the gate came back one that needs the gate (R241; log 27)? -/
  blocking : Bool
deriving DecidableEq, Repr

/-- One move of the world round the block (R20, R242, R282, log 2). -/
inductive EnvMove where
  /-- `FRAME_IN` delivers these bytes now (R33, R54). -/
  | frame (bytes : List Byte) (afterTick : Bool)
  /-- `SHUTDOWN_IN` is asserted now (R33, R246). -/
  | shutdown (afterTick : Bool)
  /-- `RESET_IN` is asserted now (R33, R247). -/
  | reset
  /-- Time advances to `t` (R24). -/
  | advance (t : Nat)
  /-- The actuation agent takes the gate (R242). -/
  | gateTake
  /-- The actuation agent gives the gate back (R242). -/
  | gateGive
  /-- The block commits its next operation now, if one is due (R220, R230, D14). -/
  | commit
deriving DecidableEq, Repr

/-- The whole state. -/
structure State where
  /-- Time counter in µs, below 2 ^ 64 (R24). -/
  now : Nat
  /-- History FIFO, newest first, at most 22 entries (R25, R153). -/
  hist : List Entry
  /-- Commit time of the last accepted drive frame (R26). -/
  lastUpdate : Nat
  /-- When the next watchdog check is due (R27). -/
  nextDeadline : Nat
  /-- Run state (R28). -/
  run : RunState
  /-- Input queue, oldest first, unbounded (R29; log 22). -/
  inq : List Pending
  /-- The shared gate (R30). -/
  gate : Gate
  /-- Output trace, oldest first, append-only (R31). -/
  out : List Output
  /-- A RESET request waits for the gate (R247, R241; log 8). -/
  resetReq : Bool
  /-- The model's own: when the actuation agent last took the gate (R284; log 5). -/
  gateTakenAt : Nat
  /-- The model's own: the ended holds of the gate since the last RESET, newest first (R284; log 5). -/
  holds : List Hold
  /-- The model's own: how many NaN patterns have been drawn (R109; log 10). -/
  draws : Nat
  /-- The model's own: the moves the world will make (log 2). -/
  env : List EnvMove
deriving DecidableEq, Repr

/-- The block has no fault: "No behaviour of the block is a `fault`" (93_implementation_defined.md), R262. -/
inductive Fault where
deriving DecidableEq, Repr

/-- Why there is no next state: the spec gives the event no meaning (R14, R262). -/
inductive Refusal where
  /-- Raised by no arm of this model (every instruction has its meaning); the name is the host's. Safe. -/
  | notModelled (mnemonic : String)
  /-- A FRAME, TICK or SHUTDOWN while `run = Halted`: refused until RESET (R28, R246, U13, U14). Safe: the model stops. -/
  | halted
  /-- An operation whose time, or whose next deadline, would reach 2 ^ 64 (R24, R100, U15). Safe: the model stops. -/
  | timeOverflow
  /-- The environment decreased time (R282, U16). Safe: the model stops. -/
  | timeDecreased
  /-- FRAME_IN delivered other than 20 bytes (R54, R282, U16). Safe: the model stops. -/
  | partialFrame
  /-- The actuation agent took a gate that is not Free, or gave back one it does not hold (R242). Safe. -/
  | gateProtocol
  /-- The operation would commit later than `EVENT_LATENCY_MAX` allows (R220 (d), R230 (c), R284; log 5). Safe. -/
  | latencyExceeded
deriving DecidableEq, Repr

/-- The machine right after power-on (R34, R280): the trace holds `GATE_ACQ, ENABLE, GATE_REL`. The gate is Free because
RESET commits only then and leaves it so (log 15); the model's own fields start as log 16 says. -/
def State.reset : State where
  now := 0
  hist := []
  lastUpdate := 0
  nextDeadline := Config.wdtPeriod
  run := .running
  inq := []
  gate := .free
  out := [.act .gateAcq, .act .enable, .act .gateRel]
  resetReq := false
  gateTakenAt := 0
  holds := []
  draws := 0
  env := []

end Sys2Proof.Machine
end

