-- ==== Sys2Proof/Machine/Operands.lean ====
section
/-! DEFINITION. Machine/Operands.lean: the operands of a frame operation (30_encoding.md R72) and what its model byte
selects (45_drive_ops.md R200). -/

namespace Sys2Proof.Machine

/-- The model table (R200): codes 9 to 11 and 15 to 255 fall back to (Bilinear, NONE). -/
def modelTable (m : Byte) : Algorithm × Filter :=
  match m.toNat with
  | 0 => (.bilinear, .none)
  | 1 => (.bilinear, .sma)
  | 2 => (.bilinear, .ema)
  | 3 => (.shepardLo, .none)
  | 4 => (.shepardLo, .sma)
  | 5 => (.shepardLo, .ema)
  | 6 => (.shepardHi, .none)
  | 7 => (.shepardHi, .sma)
  | 8 => (.shepardHi, .ema)
  | 12 => (.symbolicModelB, .none)
  | 13 => (.symbolicModelB, .sma)
  | 14 => (.symbolicModelB, .ema)
  | _ => (.bilinear, .none)

/-- The numeric code of a status (R33, R202, R260). The rules give the numbers 0, 1 and 2 and no width (N1): two bits are
the model's (DESIGN CHOICE, log 29). -/
def Status.code : Status → BitVec 2
  | .okDrive => 0
  | .okStop => 1
  | .errChecksum => 2

/-- The orientation triple of an entry, as the filter NONE reads it (R170). -/
def Entry.axes (e : Entry) : F32 × F32 × F32 := (e.ax, e.ay, e.az)

end Sys2Proof.Machine
end

