-- ==== Sys2Proof/Machine/History.lean ====
section
/-! DEFINITION. Machine/History.lean: the sample-history FIFO (42_history.md R150 to R158). The FIFO is a list, newest
first: `PushFront(e)` is `e :: h`, `Len()` the length, `Snapshot()` the list itself (R150, R52). -/

namespace Sys2Proof.Machine

/-- `PopBack()` (R150): remove the oldest entry. -/
def popBack (h : List Entry) : List Entry := h.dropLast

/-- `Back()` (R150): the oldest entry. -/
def back (h : List Entry) : Option Entry := h.getLast?

/-- `PopBack()` n times. -/
def popBackN : Nat → List Entry → List Entry
  | 0, h => h
  | n + 1, h => popBackN n (popBack h)

/-- `Normalize(x, y, z)` (R151). -/
def normalize (x y z : F32) : Draw (F32 × F32 × F32) := do
  let xx ← fmul x x
  let yy ← fmul y y
  let zz ← fmul z z
  let sq ← fadd (← fadd xx yy) zz
  let len ← fsqrt sq
  let ax ← fdiv x len
  let ay ← fdiv y len
  let az ← fdiv z len
  return (ax, ay, az)

/-- The trim of R152: pop `Len() − HIST_KEEP` entries, when that is positive. -/
def trim (h : List Entry) : List Entry :=
  if Config.histKeep < h.length then popBackN (h.length - Config.histKeep) h else h

/-- The FIFO after the insert of an entry (R152): trim, then push. -/
def insertEntry (e : Entry) (h : List Entry) : List Entry := e :: trim h

/-- The entry of a raw sample at commit time `now` (R152). -/
def newEntry (now : Nat) (x y z : F32) : Draw Entry := do
  let a ← normalize x y z
  return ⟨a.1, a.2.1, a.2.2, now⟩

/-- Is the entry older than `HIST_MAX_AGE` at `now` (R155)? An entry of exactly that age is kept. -/
def tooOld (now : Nat) (e : Entry) : Bool := decide (Config.histMaxAge < now - e.ts)

/-- The eviction loop of `WindowedView()` (R155), as a scan from the oldest entry forward over at most `fuel` entries. -/
def evictLoop (now : Nat) : Nat → List Entry → List Entry
  | 0, h => h
  | fuel + 1, h =>
    match back h with
    | none => h
    | some e => if tooOld now e then evictLoop now fuel (popBack h) else h

/-- `WindowedView()` (R155): the FIFO after the eviction, which is also the sequence the view returns. The loop stops
after at most `Len()` pops. -/
def windowedView (now : Nat) (h : List Entry) : List Entry := evictLoop now h.length h

end Sys2Proof.Machine
end

