-- ==== Sys2Proof/Machine/Filters.lean ====
section
/-! DEFINITION. Machine/Filters.lean: the smoothing filters NONE, SMA and EMA (43_filters.md R170 to R174). -/

namespace Sys2Proof.Machine

/-- The component sums of SMA, newest first from the given start (R171). -/
def smaSums : List Entry → F32 × F32 × F32 → Draw (F32 × F32 × F32)
  | [], s => return s
  | e :: rest, s => do
    let sx ← fadd s.1 e.ax
    let sy ← fadd s.2.1 e.ay
    let sz ← fadd s.2.2 e.az
    smaSums rest (sx, sy, sz)

/-- `SMA(W)` (R171). -/
def sma (w : List Entry) : Draw (F32 × F32 × F32) := do
  let s ← smaSums w (Config.zero, Config.zero, Config.zero)
  let n := toF32 w.length
  let ox ← fdiv s.1 n
  let oy ← fdiv s.2.1 n
  let oz ← fdiv s.2.2 n
  return (ox, oy, oz)

/-- The weighted component sums and the sum of weights of EMA, newest first (R172): `wt` is the weight of the next
entry, `q` the factor from each entry to the next older one; the sums are (sx, sy, sz, sw). -/
def emaSums (q : F32) : List Entry → F32 → F32 × F32 × F32 × F32 → Draw (F32 × F32 × F32 × F32)
  | [], _, s => return s
  | e :: rest, wt, s => do
    let sx ← fadd s.1 (← fmul wt e.ax)
    let sy ← fadd s.2.1 (← fmul wt e.ay)
    let sz ← fadd s.2.2.1 (← fmul wt e.az)
    let sw ← fadd s.2.2.2 wt
    let wt ← fmul wt q
    emaSums q rest wt (sx, sy, sz, sw)

/-- `decay` of a window of n entries (R172). -/
def emaDecay (n : Nat) : Draw F32 := fdiv Config.two (toF32 (n + 1))

/-- `EMA(W)` (R172). -/
def ema (w : List Entry) : Draw (F32 × F32 × F32) := do
  let decay ← emaDecay w.length
  let q ← fsub Config.one decay
  let s ← emaSums q w Config.one (Config.zero, Config.zero, Config.zero, Config.zero)
  let ox ← fdiv s.1 s.2.2.2
  let oy ← fdiv s.2.1 s.2.2.2
  let oz ← fdiv s.2.2.1 s.2.2.2
  return (ox, oy, oz)

/-- The filter step (ii) of R201 at commit time `now`, after the insert of `e` has left the FIFO `h`: the orientation,
and the FIFO after the window read that SMA and EMA make and NONE does not (R157). -/
def applyFilter (f : Filter) (now : Nat) (e : Entry) (h : List Entry) : Draw ((F32 × F32 × F32) × List Entry) :=
  match f with
  | .none => return (e.axes, h)
  | .sma => do
    let w := windowedView now h
    return (← sma w, w)
  | .ema => do
    let w := windowedView now h
    return (← ema w, w)

end Sys2Proof.Machine
end

