-- ==== Sys2Proof/Machine/Grid.lean ====
section
/-! DEFINITION. Machine/Grid.lean: the reference grid (44_steering.md R181). Its values are OPEN, finite, and 0 at the
centre; nothing else is known of them (D10, log 12). -/

namespace Sys2Proof

/-- A raw value as a finite one. -/
def confineFinite (r : F32) : F32 := if isFinite r then r else Config.zero

/-- `GRID_ALPHA[r][c]` (R181). -/
def gridAlpha (r c : Fin 3) : F32 :=
  if r = 1 ∧ c = 1 then Config.zero else confineFinite (Config.gridAlphaRaw r c)

/-- `GRID_BETA[r][c]` (R181). -/
def gridBeta (r c : Fin 3) : F32 :=
  if r = 1 ∧ c = 1 then Config.zero else confineFinite (Config.gridBetaRaw r c)

end Sys2Proof
end

