-- ==== Sys2Proof/Machine/Flags.lean ====
section
/-! DEFINITION. Machine/Flags.lean: the block's conditions. It has no condition codes and no status flags (10_state.md
R23) and no floating-point exception flags (40_numerics.md R112): a condition is computed where it is used. They are
the ordered comparisons (R108), the protected division that rests on one (R107), and the staleness predicate. -/

namespace Sys2Proof

/-- The place of a non-NaN value in the order of the reals: ±0 at 0, a negative value at minus its magnitude bits. -/
def orderKey (a : F32) : Int := if fSign a then -(fMag a : Int) else (fMag a : Int)

/-- No operand is a NaN (R108: any comparison with a NaN is false). -/
def ordered (a b : F32) : Bool := !isNaN a && !isNaN b

/-- `feq(a, b)` (R108): +0 and −0 are equal. -/
def feq (a b : F32) : Bool := ordered a b && orderKey a == orderKey b
/-- `fge(a, b)` (R108). -/
def fge (a b : F32) : Bool := ordered a b && decide (orderKey b ≤ orderKey a)
/-- `flt(a, b)` (R108). -/
def flt (a b : F32) : Bool := ordered a b && decide (orderKey a < orderKey b)

/-- `safediv(a, b)` (R107): the sentinel for b = ±0, whatever a is. No expression of the datapath has a divisor that
can be zero where the source writes it (R107, R190), so no operation calls it (log 19). -/
def safediv (a b : F32) : Draw F32 :=
  if feq b Config.zero then pure Config.safedivSentinel else fdiv a b

/-- The comparator's predicate `now − lastUpdate > WDT_TIMEOUT` (R23 `Tripped`, R231): derived, never stored. -/
def stale (now lastUpdate : Nat) : Bool := decide (Config.wdtTimeout < now - lastUpdate)

end Sys2Proof
end

