-- ==== Sys2Proof/Machine/Transcendental.lean ====
section
/-! DEFINITION. Machine/Transcendental.lean: `FN_ATAN2`, `FN_SIN`, `FN_COS`, `FN_POW` (40_numerics.md R110, D8).

Each is an OPEN total function of its operands alone, of which a claim may assume the named properties and nothing
else. Here each is its raw constant of Config.lean, confined to the named properties: where a property fixes the
value it is that value; where it fixes a range the raw value is taken if it lies in the range; elsewhere the raw value
stands. Every function with the named properties is reached by some raw function, and every raw function gives one
with the properties (log 11). -/

namespace Sys2Proof

/-- A raw value as a NaN: its own pattern, if it is one. -/
def confineNaN (r : F32) : F32 := anyNaN r

/-- A raw value confined to [−bound, bound], for a bound with sign 0. -/
def confineAbs (bound r : F32) : F32 := if fMag r ≤ fMag bound then r else bound

/-- A raw value confined to (0, +∞]. -/
def confinePos (r : F32) : F32 := if r ≠ 0#32 ∧ r ≤ 0x7F800000#32 then r else 0x7F800000

/-- `FN_ATAN2(y, x)` for y with sign 0 (`ATAN2_RANGE`). -/
def atan2Pos (y x : F32) : F32 :=
  if isNaN y || isNaN x then confineNaN (Config.atan2Raw y x)
  else if isZero y then (if fSign x then Config.pi32 else Config.zero)
  else if isZero x then Config.halfPi32
  else if fSign x then confineAbs Config.pi32 (Config.atan2Raw y x)
  else confineAbs Config.halfPi32 (Config.atan2Raw y x)

/-- `FN_ATAN2(y, x)`: odd in y (`ATAN2_ODD`). -/
def fnAtan2 (y x : F32) : F32 := if fSign y then fneg (atan2Pos (fneg y) x) else atan2Pos y x

/-- `FN_SIN(a)` (`SINCOS_ZERO`). -/
def fnSin (a : F32) : F32 :=
  if isNaN a || isInf a then confineNaN (Config.sinRaw a)
  else if isZero a then a
  else confineAbs Config.one (Config.sinRaw a)

/-- `FN_COS(a)` (`SINCOS_ZERO`). -/
def fnCos (a : F32) : F32 :=
  if isNaN a || isInf a then confineNaN (Config.cosRaw a)
  else if isZero a then Config.one
  else confineAbs Config.one (Config.cosRaw a)

/-- Is the value an odd integer (`POW_ZERO`)? -/
def isOddInteger (b : F32) : Bool :=
  isFinite b &&
    (if 0 < fUnit b then false
     else fSig b % 2 ^ (-fUnit b).toNat == 0 && fSig b / 2 ^ (-fUnit b).toNat % 2 == 1)

/-- `FN_POW(a, b)` (`POW_ZERO`). For a = +∞ and b < 0 the property gives both +0 and (0, +∞]: the value it states, +0,
is taken (log 11). -/
def fnPow (a b : F32) : F32 :=
  if isNaN a && !feq b Config.zero then confineNaN (Config.powRaw a b)
  else if flt b Config.zero && a == Config.zero && !isOddInteger b then 0x7F800000
  else if flt b Config.zero && a == 0x7F800000 then Config.zero
  else if flt b Config.zero && flt Config.zero a then confinePos (Config.powRaw a b)
  else Config.powRaw a b

end Sys2Proof
end

