-- ==== Sys2Proof/Machine/Steering.lean ====
section
/-! DEFINITION. Machine/Steering.lean: the steering datapath (44_steering.md R180 to R195) and the pipeline of a drive
frame (45_drive_ops.md R201). Nothing here writes state but the history, through the insert and the window read. -/

namespace Sys2Proof.Machine

/-- `Angles(ox, oy, oz)` in degrees (R180). -/
def angles (o : F32 × F32 × F32) : Draw (F32 × F32) := do
  let ox := o.1
  let oy := o.2.1
  let oz := o.2.2
  let phir := fnAtan2 oy oz
  let phi ← fmul phir Config.rad2deg
  let a ← fmul oy (fnSin phir)
  let b ← fmul oz (fnCos phir)
  let den ← fadd a b
  let thr := fnAtan2 (fneg ox) den
  let t ← fmul thr Config.rad2deg
  return (phi, fneg t)

/-- `lerp(a, b, s)` = (1 − s)·a + s·b (R182, D11). -/
def lerp (a b s : F32) : Draw F32 := do
  let r ← fsub Config.one s
  let ra ← fmul r a
  let sb ← fmul s b
  fadd ra sb

/-- The lower and upper grid index of an angle's quadrant (R183): by the sign of the angle, −0 in the non-negative
half, a NaN in the negative one (D30). -/
def quadrant (angle : F32) : Fin 3 × Fin 3 := if fge angle Config.zero then (1, 2) else (0, 1)

/-- The two sequential interpolations of R182 for one grid: along phi at both theta bounds, then along theta. -/
def bilinearOf (g : Fin 3 → Fin 3 → F32) (r c : Fin 3 × Fin 3) (u v : F32) : Draw F32 := do
  let lo ← lerp (g r.1 c.1) (g r.2 c.1) u
  let hi ← lerp (g r.1 c.2) (g r.2 c.2) u
  lerp lo hi v

/-- `Bilinear(phi, theta)` (R182). -/
def bilinear (phi theta : F32) : Draw (F32 × F32) := do
  let r := quadrant phi
  let c := quadrant theta
  let u ← fdiv (← fsub phi (Config.gridPhi r.1)) Config.ninety
  let v ← fdiv (← fsub theta (Config.gridTheta c.1)) Config.ninety
  let alpha ← bilinearOf gridAlpha r c u v
  let beta ← bilinearOf gridBeta r c u v
  return (alpha, beta)

/-- The nine grid points in ascending i = 3r + c (R181, R184). -/
def gridPoints : List (Fin 3 × Fin 3) :=
  [(0, 0), (0, 1), (0, 2), (1, 0), (1, 1), (1, 2), (2, 0), (2, 1), (2, 2)]

/-- The weight of one grid point (R184): Euclidean distance in degrees to the power −p. -/
def idwWeight (p phi theta : F32) (rc : Fin 3 × Fin 3) : Draw F32 := do
  let dp ← fsub phi (Config.gridPhi rc.1)
  let dt ← fsub theta (Config.gridTheta rc.2)
  let dp2 ← fmul dp dp
  let dt2 ← fmul dt dt
  let d ← fsqrt (← fadd dp2 dt2)
  return fnPow d (fneg p)

/-- The sums (`sw`, `sa`, `sb`) of R184 over the given grid points. -/
def idwSums (p phi theta : F32) : List (Fin 3 × Fin 3) → F32 × F32 × F32 → Draw (F32 × F32 × F32)
  | [], s => return s
  | rc :: rest, s => do
    let w ← idwWeight p phi theta rc
    let sw ← fadd s.1 w
    let sa ← fadd s.2.1 (← fmul w (gridAlpha rc.1 rc.2))
    let sb ← fadd s.2.2 (← fmul w (gridBeta rc.1 rc.2))
    idwSums p phi theta rest (sw, sa, sb)

/-- `ShepardIDW(p, phi, theta)` (R184). -/
def shepardIDW (p phi theta : F32) : Draw (F32 × F32) := do
  let s ← idwSums p phi theta gridPoints (Config.zero, Config.zero, Config.zero)
  let alpha ← fdiv s.2.1 s.1
  let beta ← fdiv s.2.2 s.1
  return (alpha, beta)

/-- `alpha` of SymbolicModelB (R190), from p = phi/90 and t = theta/90. -/
def symbolicAlpha (p t : F32) : Draw F32 := do
  let a ← psqrt (← psqrt (← fadd t t))
  let sp ← psqrt p
  let b ← psqrt (← fmul (← fmul p t) sp)
  let r ← psqrt (← fsub a b)
  fmul r t

/-- `beta` of SymbolicModelB (R190), from p = phi/90 and t = theta/90. -/
def symbolicBeta (p t : F32) : Draw F32 := do
  let tp ← fmul t p
  let sp ← psqrt p
  let a ← psqrt (← fmul t sp)
  let st ← psqrt t
  let b ← psqrt (← fadd t t)
  let d ← fsub (← fmul a st) b
  fmul tp d

/-- `SymbolicModelB(phi, theta)` (R190). -/
def symbolicModelB (phi theta : F32) : Draw (F32 × F32) := do
  let p ← fdiv phi Config.symbScale
  let t ← fdiv theta Config.symbScale
  let alpha ← symbolicAlpha p t
  let beta ← symbolicBeta p t
  return (alpha, beta)

/-- The algorithm step (iv) of R201 (R185 gives ShepardIDW its power). -/
def steer (a : Algorithm) (phi theta : F32) : Draw (F32 × F32) :=
  match a with
  | .bilinear => bilinear phi theta
  | .shepardLo => shepardIDW Config.idwPLo phi theta
  | .shepardHi => shepardIDW Config.idwPHi phi theta
  | .symbolicModelB => symbolicModelB phi theta

/-- `Velocity(alpha, beta)` (R195): translational, rotational. -/
def velocity (alpha beta : F32) : Draw (F32 × F32) := do
  let left ← fmul Config.vMax (← fsub alpha beta)
  let right ← fmul Config.vMax (← fadd alpha beta)
  let v ← fmul Config.transScale (← fadd left right)
  let w ← fdiv (← fsub right left) Config.rotDiv
  return (v, w)

/-- What a drive frame's pipeline leaves (R201): the velocity pair and the history. -/
structure PipelineResult where
  v : F32
  w : F32
  hist : List Entry
deriving DecidableEq, Repr

/-- `DrivePipeline(alg, filt, x, y, z)` at commit time `now` on the history `h` (R201). -/
def drivePipeline (alg : Algorithm) (filt : Filter) (now : Nat) (h : List Entry) (x y z : F32) :
    Draw PipelineResult := do
  let e ← newEntry now x y z
  let o ← applyFilter filt now e (insertEntry e h)
  let angle ← angles o.1
  let steering ← steer alg angle.1 angle.2
  let vw ← velocity steering.1 steering.2
  return ⟨vw.1, vw.2, o.2⟩

end Sys2Proof.Machine
end

