-- ==== Sys2Proof/Machine/Ops.lean ====
section
/-! DEFINITION. Machine/Ops.lean: the shared operations the meanings are written over: when an operation commits, what it
emits, and the five ways an operation can go (drive, stop, rejected frame, watchdog check, session).

The block takes no exceptions and returns from none (60_exceptions.md R262, R265): its exception-like outcomes are the
statuses of `report` (R260). An operation that needs the gate while the actuation agent holds it is HELD (R14, R241):
its meaning answers the state it was given, unchanged, and the event stays pending (log 4). Whether an event has arrived
and is next is not asked here but in Machine/Schedule.lean (log 6). -/

namespace Sys2Proof.Machine

/-- The outcome of a meaning. -/
abbrev Result := Host.Outcome State Fault Refusal

/-- An operation other than RESET has a step only while Running (R28, R246) and while its commit time is in the
counter's range (R24; log 18). -/
def whenRunning (s : State) (k : Result) : Result :=
  if s.run = .halted then .refused .halted
  else if Config.timeLimit ≤ s.now then .refused .timeOverflow
  else k

/-- An operation that sends commands commits only while the gate is Free, and is held otherwise (R241). -/
def whenGateFree (s : State) (k : Result) : Result := if s.gate = .free then k else .next s

/-- Does the operation send commands, and so need the gate (R241)? A rejected frame and a check that is not stale do not. -/
def needsGate (i : Instr) (s : State) : Bool :=
  match i with
  | .frame F => crcOk F
  | .badcrc _ _ _ _ _ _ _ => false
  | .tick => stale s.now s.lastUpdate
  | .stop _ _ _ _ _ _ | .shutdown | .reset => true
  | .driveM0 _ _ _ _ | .driveM1 _ _ _ _ | .driveM2 _ _ _ _ | .driveM3 _ _ _ _ | .driveM4 _ _ _ _ | .driveM5 _ _ _ _
  | .driveM6 _ _ _ _ | .driveM7 _ _ _ _ | .driveM8 _ _ _ _ | .driveM12 _ _ _ _ | .driveM13 _ _ _ _
  | .driveM14 _ _ _ _ => true
  | .driveDflt09 _ _ _ _ | .driveDflt0A _ _ _ _ | .driveDflt0B _ _ _ _ | .driveDflt0F _ _ _ _
  | .driveDflt10 _ _ _ _ _ | .driveDflt20 _ _ _ _ _ | .driveDflt40 _ _ _ _ _ | .driveDflt80 _ _ _ _ _ => true

/-- One bracket: the gate is taken, the commands sent in order, the gate given back (R58, R241). -/
def bracket (cmds : List ActCmd) : List Output :=
  .act .gateAcq :: (cmds.map .act ++ [.act .gateRel])

/-- `emit` (R12): append to the trace, in order. -/
def State.emit (s : State) (os : List Output) : State := { s with out := s.out ++ os }

/-- A frame operation removes its frame from the head of the queue (R29). -/
def State.dequeue (s : State) : State := { s with inq := s.inq.tail }

/-- The status of the frame being processed, before any command (R202). -/
def State.report (s : State) (c : Status) : State := s.emit [.status c]

/-- What a drive frame writes, given its pipeline's result and the counter of draws after it (R203, R204, R221). -/
def driveCommit (s : State) (r : PipelineResult) (draws : Nat) : State :=
  ({ s with hist := r.hist, lastUpdate := s.now, draws := draws }.dequeue.report .okDrive).emit
    (bracket [.setTrans r.v, .setRot r.w])

/-- A drive operation (R201 to R204, R221). -/
def driveOp (alg : Algorithm) (filt : Filter) (x y z : F32) (s : State) : Result :=
  whenRunning s (whenGateFree s
    (let r := runDraw (drivePipeline alg filt s.now s.hist x y z) s.draws
     .next (driveCommit s r.1 r.2)))

/-- What a STOP frame writes (R218). -/
def stopCommit (s : State) : State := (s.dequeue.report .okStop).emit (bracket [.stop])

/-- A STOP frame (R218). -/
def stopOp (s : State) : Result := whenRunning s (whenGateFree s (.next (stopCommit s)))

/-- What a rejected frame writes: its status and nothing else (R219). -/
def badcrcCommit (s : State) : State := s.dequeue.report .errChecksum

/-- A rejected frame (R219): it needs no gate. -/
def badcrcOp (s : State) : Result := whenRunning s (.next (badcrcCommit s))

/-- The drift-free schedule (R232). -/
def nextCheck (s : State) : Nat := s.nextDeadline + Config.wdtPeriod

/-- The watchdog check (R231, R232): a stale check sends one STOP and needs the gate, a fresh one sends nothing. A sum
that reaches 2 ^ 64 is refused (R100). -/
def tickOp (s : State) : Result :=
  whenRunning s
    (if Config.timeLimit ≤ nextCheck s then .refused .timeOverflow
     else if stale s.now s.lastUpdate then
       whenGateFree s (.next ({ s with nextDeadline := nextCheck s }.emit (bracket [.stop])))
     else .next { s with nextDeadline := nextCheck s })

/-- What SHUTDOWN writes (R246). The queue is discarded whole, with a second SHUTDOWN that arrived while this one was
pending: R246 refuses a second SHUTDOWN and names only frames as discarded (DESIGN CHOICE, log 26). -/
def shutdownCommit (s : State) : State :=
  { s.emit (bracket [.stop] ++ bracket [.releaseHw]) with run := .halted, inq := [] }

/-- SHUTDOWN (R246): two brackets, then Halted with an empty queue. -/
def shutdownOp (s : State) : Result := whenRunning s (whenGateFree s (.next (shutdownCommit s)))

/-- What RESET writes (R247): every element of R34 but the gate; the waiting request is served. The queue is discarded
whole, with a SHUTDOWN request that is pending in it: R247 and D24 discard `inq`, which holds frames only (R29), and name no
SHUTDOWN (DESIGN CHOICE, log 30). -/
def resetCommit (s : State) : State :=
  { s.emit (bracket [.enable]) with
    now := 0, hist := [], lastUpdate := 0, nextDeadline := Config.wdtPeriod, run := .running, inq := [],
    resetReq := false, gateTakenAt := 0, holds := [] }

/-- RESET (R247): in either run state, at any time, when the gate is Free. -/
def resetOp (s : State) : Result := whenGateFree s (.next (resetCommit s))

end Sys2Proof.Machine
end

