-- ==== Sys2Proof/Machine/Drive.lean ====
section
/-! DEFINITION. Machine/Drive.lean: the DRIVE operations, one definition for each row (45_drive_ops.md R205 to R217). -/

namespace Sys2Proof.Machine

/-- DRIVE.M0 (R205): Bilinear, NONE. -/
def execDriveM0 (x y z : F32) (s : State) : Result := driveOp .bilinear .none x y z s
/-- DRIVE.M1 (R206): Bilinear, SMA. -/
def execDriveM1 (x y z : F32) (s : State) : Result := driveOp .bilinear .sma x y z s
/-- DRIVE.M2 (R207): Bilinear, EMA. -/
def execDriveM2 (x y z : F32) (s : State) : Result := driveOp .bilinear .ema x y z s
/-- DRIVE.M3 (R208): ShepardIDW(1.5), NONE. -/
def execDriveM3 (x y z : F32) (s : State) : Result := driveOp .shepardLo .none x y z s
/-- DRIVE.M4 (R209): ShepardIDW(1.5), SMA. -/
def execDriveM4 (x y z : F32) (s : State) : Result := driveOp .shepardLo .sma x y z s
/-- DRIVE.M5 (R210): ShepardIDW(1.5), EMA. -/
def execDriveM5 (x y z : F32) (s : State) : Result := driveOp .shepardLo .ema x y z s
/-- DRIVE.M6 (R211): ShepardIDW(4.5), NONE. -/
def execDriveM6 (x y z : F32) (s : State) : Result := driveOp .shepardHi .none x y z s
/-- DRIVE.M7 (R212): ShepardIDW(4.5), SMA. -/
def execDriveM7 (x y z : F32) (s : State) : Result := driveOp .shepardHi .sma x y z s
/-- DRIVE.M8 (R213): ShepardIDW(4.5), EMA. -/
def execDriveM8 (x y z : F32) (s : State) : Result := driveOp .shepardHi .ema x y z s
/-- DRIVE.M12 (R214): SymbolicModelB, NONE. -/
def execDriveM12 (x y z : F32) (s : State) : Result := driveOp .symbolicModelB .none x y z s
/-- DRIVE.M13 (R215): SymbolicModelB, SMA. -/
def execDriveM13 (x y z : F32) (s : State) : Result := driveOp .symbolicModelB .sma x y z s
/-- DRIVE.M14 (R216): SymbolicModelB, EMA. -/
def execDriveM14 (x y z : F32) (s : State) : Result := driveOp .symbolicModelB .ema x y z s
/-- DRIVE.DFLT, model byte 0x09 (R217). -/
def execDriveDflt09 (x y z : F32) (s : State) : Result := driveOp .bilinear .none x y z s
/-- DRIVE.DFLT, model byte 0x0A (R217). -/
def execDriveDflt0A (x y z : F32) (s : State) : Result := driveOp .bilinear .none x y z s
/-- DRIVE.DFLT, model byte 0x0B (R217). -/
def execDriveDflt0B (x y z : F32) (s : State) : Result := driveOp .bilinear .none x y z s
/-- DRIVE.DFLT, model byte 0x0F (R217). -/
def execDriveDflt0F (x y z : F32) (s : State) : Result := driveOp .bilinear .none x y z s
/-- DRIVE.DFLT, model bytes 0x10 to 0x1F (R217). -/
def execDriveDflt10 (x y z : F32) (s : State) : Result := driveOp .bilinear .none x y z s
/-- DRIVE.DFLT, model bytes 0x20 to 0x3F (R217). -/
def execDriveDflt20 (x y z : F32) (s : State) : Result := driveOp .bilinear .none x y z s
/-- DRIVE.DFLT, model bytes 0x40 to 0x7F (R217). -/
def execDriveDflt40 (x y z : F32) (s : State) : Result := driveOp .bilinear .none x y z s
/-- DRIVE.DFLT, model bytes 0x80 to 0xFF (R217). -/
def execDriveDflt80 (x y z : F32) (s : State) : Result := driveOp .bilinear .none x y z s

end Sys2Proof.Machine
end

