-- ==== Sys2Proof/Machine/FrameOps.lean ====
section
/-! DEFINITION. Machine/FrameOps.lean: STOP, BADCRC and the frame operation as a whole (45_drive_ops.md R218, R219,
R221). -/

namespace Sys2Proof.Machine

/-- STOP (R218). -/
def execStop (s : State) : Result := stopOp s

/-- BADCRC (R219). -/
def execBadcrc (s : State) : Result := badcrcOp s

/-- FRAME: `FrameOp(B)` of R221, through `classify` (R74) and the model table (R200). -/
def execFrame (F : Frame) (s : State) : Result :=
  match classify F with
  | .badcrc => badcrcOp s
  | .stop => stopOp s
  | .drive m => driveOp (modelTable m).1 (modelTable m).2 (xOf F) (yOf F) (zOf F) s

end Sys2Proof.Machine
end

