-- ==== Sys2Proof/Machine/Session.lean ====
section
/-! DEFINITION. Machine/Session.lean: TICK (46_watchdog.md R231, R232), SHUTDOWN and RESET (47_session.md R246, R247). -/

namespace Sys2Proof.Machine

/-- TICK (R231, R232). -/
def execTick (s : State) : Result := tickOp s

/-- SHUTDOWN (R246). -/
def execShutdown (s : State) : Result := shutdownOp s

/-- RESET (R247). -/
def execReset (s : State) : Result := resetOp s

end Sys2Proof.Machine
end

