-- ==== Sys2Proof/Machine/Dispatch.lean ====
section
/-! DEFINITION. Machine/Dispatch.lean: one arm for each constructor of Instr, in the order of spec/opcode_table.json. -/

namespace Sys2Proof.Machine

def exec (i : Instr) (s : State) : Host.Outcome State Fault Refusal :=
  match i with
  | .frame F => Sys2Proof.Machine.execFrame F s
  | .driveM0 _ x y z => Sys2Proof.Machine.execDriveM0 x y z s
  | .driveM1 _ x y z => Sys2Proof.Machine.execDriveM1 x y z s
  | .driveM2 _ x y z => Sys2Proof.Machine.execDriveM2 x y z s
  | .driveM3 _ x y z => Sys2Proof.Machine.execDriveM3 x y z s
  | .driveM4 _ x y z => Sys2Proof.Machine.execDriveM4 x y z s
  | .driveM5 _ x y z => Sys2Proof.Machine.execDriveM5 x y z s
  | .driveM6 _ x y z => Sys2Proof.Machine.execDriveM6 x y z s
  | .driveM7 _ x y z => Sys2Proof.Machine.execDriveM7 x y z s
  | .driveM8 _ x y z => Sys2Proof.Machine.execDriveM8 x y z s
  | .driveDflt09 _ x y z => Sys2Proof.Machine.execDriveDflt09 x y z s
  | .driveDflt0A _ x y z => Sys2Proof.Machine.execDriveDflt0A x y z s
  | .driveDflt0B _ x y z => Sys2Proof.Machine.execDriveDflt0B x y z s
  | .driveM12 _ x y z => Sys2Proof.Machine.execDriveM12 x y z s
  | .driveM13 _ x y z => Sys2Proof.Machine.execDriveM13 x y z s
  | .driveM14 _ x y z => Sys2Proof.Machine.execDriveM14 x y z s
  | .driveDflt0F _ x y z => Sys2Proof.Machine.execDriveDflt0F x y z s
  | .driveDflt10 _ _ x y z => Sys2Proof.Machine.execDriveDflt10 x y z s
  | .driveDflt20 _ _ x y z => Sys2Proof.Machine.execDriveDflt20 x y z s
  | .driveDflt40 _ _ x y z => Sys2Proof.Machine.execDriveDflt40 x y z s
  | .driveDflt80 _ _ x y z => Sys2Proof.Machine.execDriveDflt80 x y z s
  | .stop _ _ _ _ _ _ => Sys2Proof.Machine.execStop s
  | .badcrc _ _ _ _ _ _ _ => Sys2Proof.Machine.execBadcrc s
  | .tick => Sys2Proof.Machine.execTick s
  | .shutdown => Sys2Proof.Machine.execShutdown s
  | .reset => Sys2Proof.Machine.execReset s

end Sys2Proof.Machine
end

