-- ==== Sys2Proof/Machine/Schedule.lean ====
section
/-! DEFINITION. Machine/Schedule.lean: which operation commits next, and when (20_memory.md R55, 45_drive_ops.md R220,
46_watchdog.md R230, 60_exceptions.md R264). -/

namespace Sys2Proof.Machine

/-- An operation that is due, and when its event arrived. -/
structure Due where
  instr : Instr
  arrival : Nat
deriving DecidableEq, Repr

/-- The instruction of a pending event (R78). -/
def InputEvent.word : InputEvent → EventWord
  | .frame F => ⟨0, F⟩
  | .shutdown => ⟨2, 0⟩

/-- The operation of a pending event. -/
def Pending.due (p : Pending) : Due := ⟨decodeEvent p.event.word, p.arrival⟩

/-- The head of the queue, if it has arrived. -/
def headDue (s : State) : Option Pending :=
  match s.inq with
  | [] => none
  | p :: _ => if p.arrival ≤ s.now then some p else none

/-- A TICK is due from the instant `nextDeadline` on (R230). -/
def tickDue (s : State) : Bool := decide (s.nextDeadline ≤ s.now)

/-- Does the pending event go before the tick of the given deadline? The earlier arrival goes first; at the same instant
either may, and the event says which (R55, R220 (b), R230 (a), R264). -/
def goesBefore (p : Pending) (deadline : Nat) : Bool :=
  decide (p.arrival < deadline) || (decide (p.arrival = deadline) && !p.afterTick)

/-- The TICK of the current deadline (R230). -/
def tickEvent (s : State) : Due := ⟨decodeEvent ⟨1, 0⟩, s.nextDeadline⟩

/-- The operation that commits next, if any is due: a RESET request ahead of everything (R247, R264 (d)); nothing else
in Halted (R28); otherwise the earlier of the queue's head and the tick. A RESET request keeps no arrival and counts as
arriving now, so `EVENT_LATENCY_MAX` does not bound it; a SHUTDOWN is bounded from its arrival as a frame is (DESIGN
CHOICE, log 25: D14 bounds each event, R247 says at any time). -/
def nextDue (s : State) : Option Due :=
  if s.resetReq then some ⟨decodeEvent ⟨3, 0⟩, s.now⟩
  else if s.run = .halted then none
  else
    match headDue s with
    | none => if tickDue s then some (tickEvent s) else none
    | some p => if tickDue s && !goesBefore p s.nextDeadline then some (tickEvent s) else some p.due

/-- The part of an ended hold after the given arrival. -/
def Hold.after (h : Hold) (arrival : Nat) : Nat := h.given - max h.taken arrival

/-- How long the actuation agent's gate may have delayed a due operation since its event arrived (R284). An operation
that needs the gate counts every hold, the present one too; one that needs none never waits for the gate itself (R241)
and counts the ended holds that kept an operation ahead of it waiting (log 27). -/
def heldFor (s : State) (d : Due) : Nat :=
  let gated := needsGate d.instr s
  ((s.holds.filter (fun h => gated || h.blocking)).map (·.after d.arrival)).sum +
    (if gated ∧ s.gate = .heldByActuator then s.now - max s.gateTakenAt d.arrival else 0)

/-- R220 (d), R230 (c), R284: now is at most `EVENT_LATENCY_MAX` after the arrival, not counting the time the gate held the
operation up (log 5). -/
def withinLatency (s : State) (d : Due) : Bool :=
  decide (s.now ≤ d.arrival + heldFor s d) ||
    (match Config.eventLatencyMax with
     | none => true
     | some m => decide (s.now ≤ d.arrival + heldFor s d + m))

/-- The block commits its next operation now; with nothing due, nothing happens. -/
def commitNext (s : State) : Result :=
  match nextDue s with
  | none => .next s
  | some d => if withinLatency s d then exec d.instr s else .refused .latencyExceeded

/-- Is an operation due that needs the gate (R241)? -/
def gateWaited (s : State) : Bool :=
  match nextDue s with
  | none => false
  | some d => needsGate d.instr s

end Sys2Proof.Machine
end

