-- ==== Sys2Proof/Machine/Environment.lean ====
section
/-! DEFINITION. Machine/Environment.lean: the moves of the environment and of the actuation agent (10_state.md R20, R24,
R29, R30; 47_session.md R242; 70_reset_and_hazards.md R282), and the block left on its own. -/

namespace Sys2Proof.Machine

/-- An event arrives: it joins the queue with its arrival time (R29). After SHUTDOWN it is refused (R246, U13, U14). -/
def arrive (s : State) (e : InputEvent) (afterTick : Bool) : Result :=
  if s.run = .halted then .refused .halted
  else .next { s with inq := s.inq ++ [⟨e, s.now, afterTick⟩] }

/-- `FRAME_IN`: a frame arrives whole, or is refused (R54, R282; log 21). -/
def arriveFrame (s : State) (bytes : List Byte) (afterTick : Bool) : Result :=
  match packFrame bytes with
  | .ok F => arrive s (.frame F) afterTick
  | .error _ => .refused .partialFrame

/-- Time advances; it never decreases and never reaches 2 ^ 64 (R24, R282). -/
def advanceTo (s : State) (t : Nat) : Result :=
  if t < s.now then .refused .timeDecreased
  else if Config.timeLimit ≤ t then .refused .timeOverflow
  else .next { s with now := t }

/-- The actuation agent takes a Free gate (R30, R242; log 21). -/
def gateTake (s : State) : Result :=
  if s.gate = .free then .next { s with gate := .heldByActuator, gateTakenAt := s.now }
  else .refused .gateProtocol

/-- The state after the actuation agent gives the gate back: the hold has ended (R242, R284). -/
def State.endHold (s : State) : State :=
  { s with gate := .free, holds := ⟨s.gateTakenAt, s.now, gateWaited s⟩ :: s.holds }

/-- The actuation agent gives back the gate it holds (R30, R242). -/
def gateGive (s : State) : Result :=
  if s.gate = .heldByActuator then .next s.endHold else .refused .gateProtocol

/-- One move of the world. -/
def envMove (m : EnvMove) (s : State) : Result :=
  match m with
  | .frame bytes afterTick => arriveFrame s bytes afterTick
  | .shutdown afterTick => arrive s .shutdown afterTick
  | .reset => .next { s with resetReq := true }
  | .advance t => advanceTo s t
  | .gateTake => gateTake s
  | .gateGive => gateGive s
  | .commit => commitNext s

/-- The block with no move of the world left: what is due commits; with nothing due and the block Running, time passes
to the next watchdog deadline (log 3). -/
def runFree (s : State) : Result :=
  match nextDue s with
  | some _ => commitNext s
  | none => if s.run = .running then advanceTo s (max s.now s.nextDeadline) else .next s

/-- The moves left after putting one commit of the block before those the state holds; a state with none left needs no
commit, since the block then runs on its own. -/
def commitFirst : List EnvMove → List EnvMove
  | [] => []
  | m :: ms => .commit :: m :: ms

/-- The state in which the given pending event commits in the very next step: it stands at the head of the queue,
arrived now, the block is Running, the gate Free, no RESET waits and no earlier tick is due (log 17). -/
def State.withPending (s : State) (e : InputEvent) : State :=
  { s with
    inq := ⟨e, s.now, false⟩ :: s.inq, run := .running, gate := .free, resetReq := false,
    nextDeadline := max s.nextDeadline s.now, env := commitFirst s.env }

/-- The state in which a TICK commits in the very next step: time stands at its deadline and no other event waits
(log 17). -/
def State.withTick (s : State) : State :=
  { s with
    now := max s.now s.nextDeadline, nextDeadline := max s.now s.nextDeadline, inq := [], run := .running,
    gate := .free, resetReq := false, env := commitFirst s.env }

/-- The state in which a RESET commits in the very next step (log 17). -/
def State.withReset (s : State) : State :=
  { s with resetReq := true, gate := .free, env := commitFirst s.env }

/-- The state in which the event of an opcode-table word commits in the very next step (log 17). -/
def State.withTableWord (s : State) (nbits w : Nat) : State :=
  if isEventRow nbits then
    match decodeEvent ⟨BitVec.ofNat 2 w, 0⟩ with
    | .tick => s.withTick
    | .shutdown => s.withPending .shutdown
    | .reset => s.withReset
    | _ => s.withPending (.frame 0)
  else
    match packFrame (tableFrameBytes nbits w) with
    | .ok F => s.withPending (.frame F)
    | .error _ => s

end Sys2Proof.Machine
end

