-- ==== Sys2Proof/Machine/Step.lean ====
section
/-! DEFINITION. Machine/Step.lean: one step of the machine, and where the host places an instruction. -/

namespace Sys2Proof.Machine

/-- One step: the next move of the world if one is listed, else the block on its own (log 2, log 3). -/
def step (s : State) : Host.Outcome State Fault Refusal :=
  match s.env with
  | [] => runFree s
  | m :: rest => envMove m { s with env := rest }

/-- `s` with the event of an opcode-table word placed where the very next step takes it (log 17). -/
def State.withFetchWord (s : State) (nbits w : Nat) : State := s.withTableWord nbits w

end Sys2Proof.Machine
end

