-- ==== Sys2Proof/Safety.lean ====
section
/-! DEFINITION. Safety.lean: what counts as a safe state and a safe trace, in the terms the statements use. -/

namespace Sys2Proof.Machine

/-- The history's timestamps do not increase from the newest to the oldest entry (R154). -/
def newestFirst (h : List Entry) : Prop := h.Pairwise (fun a b => b.ts ≤ a.ts)

/-- The queue's arrival times do not decrease from the head on (R29). -/
def oldestFirst (q : List Pending) : Prop := q.Pairwise (fun a b => a.arrival ≤ b.arrival)

/-- The invariant of the block's state. -/
structure State.Inv (s : State) : Prop where
  /-- The history fits its storage (R52, R153). -/
  hist_length : s.hist.length ≤ Config.histCap
  /-- The history is in order (R154). -/
  hist_order : newestFirst s.hist
  /-- Every entry was inserted at or before now (R24, R152). -/
  hist_past : ∀ e ∈ s.hist, e.ts ≤ s.now
  /-- `lastUpdate ≤ now` (R26). -/
  lastUpdate_le : s.lastUpdate ≤ s.now
  /-- The time counter is in range (R24). -/
  now_lt : s.now < Config.timeLimit
  /-- The schedule is in range (R27, R100). -/
  deadline_lt : s.nextDeadline < Config.timeLimit
  /-- The next deadline is a positive multiple of the period (R232). -/
  deadline_period : ∃ k, 0 < k ∧ s.nextDeadline = k * Config.wdtPeriod
  /-- The queue is in arrival order (R29, R55). -/
  inq_order : oldestFirst s.inq
  /-- Every queued event has arrived (R29). -/
  inq_past : ∀ p ∈ s.inq, p.arrival ≤ s.now
  /-- A halted block has an empty queue (R246). -/
  halted_empty : s.run = .halted → s.inq = []
  /-- The agent took the gate at or before now (R242). -/
  gateTakenAt_le : s.gateTakenAt ≤ s.now
  /-- Every ended hold began before it ended, at or before now (R242). -/
  holds_past : ∀ h ∈ s.holds, h.taken ≤ h.given ∧ h.given ≤ s.now
  /-- The ended holds are in order and do not overlap (R242). -/
  holds_order : s.holds.Pairwise (fun a b => b.given ≤ a.taken)
  /-- While the agent holds the gate, every earlier hold ended before this one began (R242). -/
  holds_before : s.gate = .heldByActuator → ∀ h ∈ s.holds, h.given ≤ s.gateTakenAt

/-- Reads a trace as a gate protocol (R58, R241): `inside` says whether the gate is taken. Every command stands inside a
bracket, brackets do not nest, and a status stands outside them (R202); `none` is a violation. -/
def scanTrace : Bool → List Output → Option Bool
  | inside, [] => some inside
  | inside, .status _ :: rest => if inside then none else scanTrace inside rest
  | inside, .act .gateAcq :: rest => if inside then none else scanTrace true rest
  | inside, .act .gateRel :: rest => if inside then scanTrace false rest else none
  | inside, .act _ :: rest => if inside then scanTrace inside rest else none

/-- Every command of the trace is bracketed and the gate is given back at its end. -/
def wellBracketed (out : List Output) : Prop := scanTrace false out = some false

/-- How many `ENABLE` commands a trace holds (R243). -/
def enables (out : List Output) : Nat := out.count (.act .enable)

/-- Run `k` steps, stopping at the first refusal. -/
def runSteps : Nat → State → Host.Outcome State Fault Refusal
  | 0, s => .next s
  | k + 1, s =>
    match step s with
    | .next t => runSteps k t
    | .fault r => .fault r
    | .refused r => .refused r

/-- The conditions on the state under which an operation that sends commands commits (R220, R241): Running, the time in
range, the gate Free. -/
structure State.Ready (s : State) : Prop where
  running : s.run = .running
  now_lt : s.now < Config.timeLimit
  gate_free : s.gate = .free

/-- What a drive frame with the velocity pair (v, w) sends (R202, R204). -/
def driveTrace (v w : F32) : List Output :=
  [.status .okDrive, .act .gateAcq, .act (.setTrans v), .act (.setRot w), .act .gateRel]

/-- Steps (iii) to (v) of the pipeline (R201): from an orientation to the velocity pair. -/
def steeringOf (alg : Algorithm) (o : F32 × F32 × F32) : Draw (F32 × F32) := do
  let angle ← angles o
  let steering ← steer alg angle.1 angle.2
  velocity steering.1 steering.2

/-- The history after drive frames, oldest first: each inserts its entry, and one with a filter then reads the window at its
commit time (R157). -/
def insertAll : List (Entry × Bool) → List Entry → List Entry
  | [], h => h
  | (e, read) :: rest, h =>
    let h' := insertEntry e h
    insertAll rest (if read then windowedView e.ts h' else h')

/-- The exact value of a finite float (R101). -/
def f32Value (a : F32) : ℚ := (if fSign a then -1 else 1) * fSig a * (2 : ℚ) ^ fUnit a

/-- `r` is the real number `x` rounded to binary32, to nearest with ties to even (R102): either `x` is below the overflow
threshold and `r` is a finite value nearest to `x`, even if another is as near, or `x` is beyond it and `r` is the
infinity of its sign. -/
def RoundsTo (x : ℝ) (r : F32) : Prop :=
  (|x| < (2 ^ 25 - 1) * 2 ^ 103 ∧ isFinite r = true ∧
    (∀ c : F32, isFinite c = true → |(f32Value r : ℝ) - x| ≤ |(f32Value c : ℝ) - x|) ∧
    (∀ c : F32, isFinite c = true → f32Value c ≠ f32Value r →
      |(f32Value c : ℝ) - x| = |(f32Value r : ℝ) - x| → fMag r % 2 = 0)) ∨
  ((2 ^ 25 - 1) * 2 ^ 103 ≤ |x| ∧ isInf r = true ∧ (fSign r = true ↔ x < 0))

end Sys2Proof.Machine
end

