-- ==== Sys2Proof/Certificates/Slice0/Obligations.lean ====
section
/-! DEFINITION. Certificates/Slice0/Obligations.lean: the statements for the provers. Each cites the rule of spec/ it
formalises or rests on. `s.Ready` is: Running, time in range, gate Free (Safety.lean). -/

open Sys2Proof Sys2Proof.Machine

/-! ### Encoding and decoding -/

/-- R70, R74, R75, R76, R78: a well-formed frame row is read back from the frame it encodes to, and an event row from its
event word (FRAME with every payload), every operand at every value. -/
def Obligations.RowsRoundTrip : Prop :=
  ∀ i : Instr, i.wellFormed = true →
    (i.isFrameRow = true → decode (encode i) = i) ∧ (i.isFrameRow = false → decodeEvent (encode i) = i)

/-- R71, R76, R77: every frame decodes to a well-formed frame row, and is the encoding of that row: no bit of a frame is
dropped and no frame is illegal. Its 20 bytes in wire order are read back as the frame. -/
def Obligations.EveryFrameIsTheEncodingOfItsRow : Prop :=
  ∀ F : Frame, (decodeFrame F).isFrameRow = true ∧ (decodeFrame F).wellFormed = true ∧
    encode (decodeFrame F) = ⟨0, F⟩ ∧ packFrame (wireBytes F) = .ok F

/-- R74: the selection order. -/
def Obligations.ClassifyTakesTheFirstMatchingCase : Prop :=
  ∀ F : Frame,
    (crcComputed F ≠ crcField F → classify F = .badcrc) ∧
    (crcComputed F = crcField F → ctlOf F = 0xFF → classify F = .drive (modelOf F)) ∧
    (crcComputed F = crcField F → ctlOf F ≠ 0xFF → classify F = .stop)

/-- R75: the drive opcode map. For a frame that passes the CRC and has `ctl` = 0xFF, the model byte selects the row. -/
def Obligations.ModelByteSelectsItsRow : Prop :=
  ∀ F : Frame, crcOk F = true → ctlOf F = 0xFF →
    let r := rsvOf F
    let x := xOf F
    let y := yOf F
    let z := zOf F
    (modelOf F = 0x00 → decodeFrame F = .driveM0 r x y z) ∧
    (modelOf F = 0x01 → decodeFrame F = .driveM1 r x y z) ∧
    (modelOf F = 0x02 → decodeFrame F = .driveM2 r x y z) ∧
    (modelOf F = 0x03 → decodeFrame F = .driveM3 r x y z) ∧
    (modelOf F = 0x04 → decodeFrame F = .driveM4 r x y z) ∧
    (modelOf F = 0x05 → decodeFrame F = .driveM5 r x y z) ∧
    (modelOf F = 0x06 → decodeFrame F = .driveM6 r x y z) ∧
    (modelOf F = 0x07 → decodeFrame F = .driveM7 r x y z) ∧
    (modelOf F = 0x08 → decodeFrame F = .driveM8 r x y z) ∧
    (modelOf F = 0x09 → decodeFrame F = .driveDflt09 r x y z) ∧
    (modelOf F = 0x0A → decodeFrame F = .driveDflt0A r x y z) ∧
    (modelOf F = 0x0B → decodeFrame F = .driveDflt0B r x y z) ∧
    (modelOf F = 0x0C → decodeFrame F = .driveM12 r x y z) ∧
    (modelOf F = 0x0D → decodeFrame F = .driveM13 r x y z) ∧
    (modelOf F = 0x0E → decodeFrame F = .driveM14 r x y z) ∧
    (modelOf F = 0x0F → decodeFrame F = .driveDflt0F r x y z) ∧
    (∀ lo : BitVec 4, modelOf F = 0x1#4 ++ lo → decodeFrame F = .driveDflt10 lo r x y z) ∧
    (∀ lo : BitVec 5, modelOf F = 0x1#3 ++ lo → decodeFrame F = .driveDflt20 lo r x y z) ∧
    (∀ lo : BitVec 6, modelOf F = 0x1#2 ++ lo → decodeFrame F = .driveDflt40 lo r x y z) ∧
    (∀ lo : BitVec 7, modelOf F = 0x1#1 ++ lo → decodeFrame F = .driveDflt80 lo r x y z)

/-- R78, and the frames V-CRC-2, V-DEC-2, V-DEC-3, V-OP-2, V-OP-3 and W9 of 95_test_vectors.md: written-out words decode
to the rows they stand for. -/
def Obligations.WrittenOutWordsDecode : Prop :=
  decodeEvent ⟨0b00, 5⟩ = .frame 5 ∧ decodeEvent ⟨0b01, 0⟩ = .tick ∧
  decodeEvent ⟨0b10, 0⟩ = .shutdown ∧ decodeEvent ⟨0b11, 0⟩ = .reset ∧
  decodeFrame 0xFF0000003F8000000000000000000000F096EE68 = .driveM0 0 0x3F800000 0 0 ∧
  decodeFrame 0xFF00000000000000000000003F800000A8B781F5 = .driveM0 0 0 0 0x3F800000 ∧
  decodeFrame 0x000500003F80000040000000404000000C737E24 = .stop 0x00 0x05 0 0x3F800000 0x40000000 0x40400000 ∧
  decodeFrame 0xFE0000000000000000000000000000004FA2E313 = .stop 0xFE 0x00 0 0 0 0 ∧
  decodeFrame 0x00000000000000000000000000000000ECBB4B55 = .stop 0 0 0 0 0 0 ∧
  decodeFrame 0xFF0000003E8000000000000000000000F096EE68 = .badcrc 0xFF 0 0 0x3E800000 0 0 0xF096EE68

/-- R77, R136: two valid frames that differ in the reserved field (and so in the checksum) only have the same effect. -/
def Obligations.ReservedBytesHaveNoEffect : Prop :=
  ∀ (F G : Frame) (s : State), crcOk F = true → crcOk G = true → ctlOf F = ctlOf G → modelOf F = modelOf G →
    xOf F = xOf G → yOf F = yOf G → zOf F = zOf G → exec (.frame F) s = exec (.frame G) s

/-- R139 (its first clause): replacing any one of the bytes `B[0..15]` of a valid frame by any other value, keeping the
checksum field, makes the check fail. It rests on the PRESUMED `CRC_VARIANT` (log 13). -/
def Obligations.OneByteCorruptionFailsTheChecksum : Prop :=
  ∀ (F : Frame) (k : Nat) (b : Byte), crcOk F = true → k < 16 → b ≠ frameByte F k → crcOk (corrupt F k b) = false

/-- R131, R133, R137: `decode(B)` is the ControlSample of the fields if the checksum holds, and `ChecksumMismatch`
otherwise. C7, W8: a ControlSample is decoded from the frame built of it; C7 and W8 build one for drive = true only, and
the control byte 0x00 for drive = false is the model's choice (log 28). -/
def Obligations.DecodeSampleFollowsTheChecksum : Prop :=
  (∀ F : Frame,
    (crcOk F = false → decodeSample F = .error .checksumMismatch) ∧
    (crcOk F = true →
      decodeSample F = .ok ⟨decide (frameByte F 0 = 0xFF), frameByte F 1, be32 F 4, be32 F 8, be32 F 12⟩)) ∧
  (∀ c : ControlSample, decodeSample (encodeSample c) = .ok c)

/-! ### The step -/

/-- R55, R78, R220, R221: a frame at the head of the queue that has arrived, with no tick due before it, no RESET
waiting and no move of the world left (the model's scripts, log 2 and log 3), is what the step runs: as the FRAME event
and as the row it decodes to. -/
def Obligations.StepRunsTheFrameAtTheHead : Prop :=
  ∀ (s : State) (F : Frame) (arrival : Nat) (afterTick : Bool) (rest : List Pending),
    s.env = [] → s.run = .running → s.resetReq = false → s.inq = ⟨.frame F, arrival, afterTick⟩ :: rest →
    arrival ≤ s.now → (s.now < s.nextDeadline ∨ arrival < s.nextDeadline) → withinLatency s ⟨.frame F, arrival⟩ = true →
    step s = exec (.frame F) s ∧ step s = exec (decodeFrame F) s

/-- R55, R220, R230, D14, R284: what is due is what the step runs, on its own with no move of the world left, and at a
`commit` move otherwise, from its arrival until `EVENT_LATENCY_MAX` and the time the gate held it up have passed; a later
commit is refused. Without a hold of the gate that can delay it that is the interval [arrival, arrival +
`EVENT_LATENCY_MAX`]; an operation is never too late while the gate holds it from its arrival on; a hold adds no more than
its length. A `commit` move with nothing due changes nothing else. The moves, the refusal and the count of the holds are
the model's choice (log 2, log 3, log 5, log 27). -/
def Obligations.StepRunsWhatIsDue : Prop :=
  (∀ (s : State) (d : Due), s.env = [] → nextDue s = some d →
    step s = (if withinLatency s d then exec d.instr s else .refused .latencyExceeded)) ∧
  (∀ (s : State) (d : Due) (rest : List EnvMove), nextDue { s with env := rest } = some d →
    step { s with env := .commit :: rest } =
      (if withinLatency { s with env := rest } d then exec d.instr { s with env := rest }
       else .refused .latencyExceeded)) ∧
  (∀ (s : State) (rest : List EnvMove), nextDue { s with env := rest } = none →
    step { s with env := .commit :: rest } = .next { s with env := rest }) ∧
  (∀ (s : State) (d : Due), nextDue s = some d → d.arrival ≤ s.now) ∧
  (∀ (s : State) (d : Due), withinLatency s d = true ↔
    (match Config.eventLatencyMax with
     | none => True
     | some m => s.now ≤ d.arrival + m + heldFor s d)) ∧
  (∀ (s : State) (d : Due), (∀ h ∈ s.holds, h.given ≤ d.arrival) →
    (s.gate = .free ∨ needsGate d.instr s = false) → heldFor s d = 0) ∧
  (∀ (s : State) (d : Due), s.gate = .heldByActuator → needsGate d.instr s = true → s.gateTakenAt ≤ d.arrival →
    s.now ≤ d.arrival + heldFor s d) ∧
  (∀ (s : State) (d : Due), s.gate = .heldByActuator →
    (needsGate d.instr s = true →
      heldFor s.endHold d = heldFor s d) ∧
    heldFor s.endHold d ≤ heldFor { s with gate := .free } d + (s.now - s.gateTakenAt))

/-- R221 with R74, R75, R200: the frame operation as a whole does what the row it decodes to does. -/
def Obligations.FrameOpRunsTheDecodedRow : Prop :=
  ∀ (F : Frame) (s : State), exec (.frame F) s = exec (decodeFrame F) s

/-- R55, R220 (b), R230 (a), R264: with an arrived event at the head and a tick due, the earlier one is next; at the same
instant both orders are admitted, as the event's own bit `afterTick` says (that such a bit decides a tie is the model's
choice, log 9). -/
def Obligations.EventsCommitInArrivalOrder : Prop :=
  ∀ (s : State) (p : Pending) (rest : List Pending), s.run = .running → s.resetReq = false → s.inq = p :: rest →
    p.arrival ≤ s.now → s.nextDeadline ≤ s.now →
    (p.arrival < s.nextDeadline → nextDue s = some p.due) ∧
    (s.nextDeadline < p.arrival → nextDue s = some ⟨.tick, s.nextDeadline⟩) ∧
    (p.arrival = s.nextDeadline → p.afterTick = false → nextDue s = some p.due) ∧
    (p.arrival = s.nextDeadline → p.afterTick = true → nextDue s = some ⟨.tick, s.nextDeadline⟩)

/-- R247, R264 (d): a waiting RESET is what is due, ahead of every pending event, in either run state; a step runs it, on
its own with no move of the world left and at a `commit` move otherwise. `resetReq` is the model's reading of a held RESET
(log 8); that no latency bounds it, and the moves, are the model's choice (log 25, log 2, log 3). -/
def Obligations.ResetGoesAheadOfEverything : Prop :=
  ∀ s : State, s.resetReq = true →
    nextDue s = some ⟨.reset, s.now⟩ ∧ (s.env = [] → step s = exec .reset s) ∧
    (∀ rest : List EnvMove, step { s with env := .commit :: rest } = exec .reset { s with env := rest })

/-- R24, R29, R30, R33, R54, R242, R246, R282: what each move of the world does, and which it refuses. A frame or a
SHUTDOWN request joins the queue with its arrival time; a RESET request waits; time advances but never decreases; the
gate is taken when Free and given back by its holder, and neither otherwise. The form of the moves, `resetReq`,
`gateTakenAt` and `holds` are the model's (log 2, log 5, log 7, log 8), and so is the name of a refusal (log 21). It is the
model's choice too that a SHUTDOWN request joins the queue while an earlier one is pending (R246 and U14 refuse a second
one; log 26), and that an ended hold records `gateWaited` (log 27). -/
def Obligations.WorldMovesResult : Prop :=
  ∀ (s : State) (rest : List EnvMove),
    let s' : State := { s with env := rest }
    let stepOn (m : EnvMove) := step { s with env := m :: rest }
    (∀ bytes F b, packFrame bytes = .ok F → s.run = .running →
      stepOn (.frame bytes b) = .next { s' with inq := s.inq ++ [⟨.frame F, s.now, b⟩] }) ∧
    (∀ bytes b, bytes.length ≠ 20 → stepOn (.frame bytes b) = .refused .partialFrame) ∧
    (∀ b, s.run = .running → stepOn (.shutdown b) = .next { s' with inq := s.inq ++ [⟨.shutdown, s.now, b⟩] }) ∧
    (∀ b, s.run = .halted → stepOn (.shutdown b) = .refused .halted) ∧
    (∀ bytes b, bytes.length = 20 → s.run = .halted → stepOn (.frame bytes b) = .refused .halted) ∧
    stepOn .reset = .next { s' with resetReq := true } ∧
    (∀ u, s.now ≤ u → u < 2 ^ 64 → stepOn (.advance u) = .next { s' with now := u }) ∧
    (∀ u, u < s.now → stepOn (.advance u) = .refused .timeDecreased) ∧
    (∀ u, s.now ≤ u → 2 ^ 64 ≤ u → stepOn (.advance u) = .refused .timeOverflow) ∧
    (s.gate = .free → stepOn .gateTake = .next { s' with gate := .heldByActuator, gateTakenAt := s.now }) ∧
    (s.gate = .heldByActuator → stepOn .gateTake = .refused .gateProtocol) ∧
    (s.gate = .heldByActuator → stepOn .gateGive = .next { s' with
      gate := .free, holds := ⟨s.gateTakenAt, s.now, gateWaited s⟩ :: s.holds }) ∧
    (s.gate = .free → stepOn .gateGive = .refused .gateProtocol)

/-! ### What each instruction does -/

/-- R205, R208, R211, R214, R217 over R170, R201 to R204: a drive frame without a filter. The orientation is the
normalised sample itself; the history gains the entry and nothing is evicted; nothing else changes. `draws` is the
model's own counter of free NaN patterns (log 10). -/
def Obligations.UnfilteredDriveResult : Prop :=
  ∀ (s : State) (rsv : BitVec 16) (x y z : F32) (l4 : BitVec 4) (l5 : BitVec 5) (l6 : BitVec 6) (l7 : BitVec 7)
    (i : Instr) (alg : Algorithm), s.Ready →
    (i, alg) ∈ [(.driveM0 rsv x y z, .bilinear), (.driveM3 rsv x y z, .shepardLo), (.driveM6 rsv x y z, .shepardHi),
      (.driveM12 rsv x y z, .symbolicModelB), (.driveDflt09 rsv x y z, .bilinear), (.driveDflt0A rsv x y z, .bilinear),
      (.driveDflt0B rsv x y z, .bilinear), (.driveDflt0F rsv x y z, .bilinear),
      (.driveDflt10 l4 rsv x y z, .bilinear), (.driveDflt20 l5 rsv x y z, .bilinear),
      (.driveDflt40 l6 rsv x y z, .bilinear), (.driveDflt80 l7 rsv x y z, Algorithm.bilinear)] →
    let en := runDraw (newEntry s.now x y z) s.draws
    let vw := runDraw (steeringOf alg en.1.axes) en.2
    exec i s = .next { s with
      hist := insertEntry en.1 s.hist, lastUpdate := s.now, inq := s.inq.tail, draws := vw.2,
      out := s.out ++ driveTrace vw.1.1 vw.1.2 }

/-- R206, R209, R212, R215 over R155, R171, R201 to R204: a drive frame with SMA. The window is read after the insert and
evicts the stale entries; nothing else changes but the model's counter `draws` (log 10). -/
def Obligations.SmaDriveResult : Prop :=
  ∀ (s : State) (rsv : BitVec 16) (x y z : F32) (i : Instr) (alg : Algorithm), s.Ready →
    (i, alg) ∈ [(.driveM1 rsv x y z, .bilinear), (.driveM4 rsv x y z, .shepardLo), (.driveM7 rsv x y z, .shepardHi),
      (.driveM13 rsv x y z, Algorithm.symbolicModelB)] →
    let en := runDraw (newEntry s.now x y z) s.draws
    let w := windowedView s.now (insertEntry en.1 s.hist)
    let o := runDraw (sma w) en.2
    let vw := runDraw (steeringOf alg o.1) o.2
    exec i s = .next { s with
      hist := w, lastUpdate := s.now, inq := s.inq.tail, draws := vw.2,
      out := s.out ++ driveTrace vw.1.1 vw.1.2 }

/-- R207, R210, R213, R216 over R155, R172, R201 to R204: a drive frame with EMA. The window is read after the insert and
evicts the stale entries; nothing else changes but the model's counter `draws` (log 10). -/
def Obligations.EmaDriveResult : Prop :=
  ∀ (s : State) (rsv : BitVec 16) (x y z : F32) (i : Instr) (alg : Algorithm), s.Ready →
    (i, alg) ∈ [(.driveM2 rsv x y z, .bilinear), (.driveM5 rsv x y z, .shepardLo), (.driveM8 rsv x y z, .shepardHi),
      (.driveM14 rsv x y z, Algorithm.symbolicModelB)] →
    let en := runDraw (newEntry s.now x y z) s.draws
    let w := windowedView s.now (insertEntry en.1 s.hist)
    let o := runDraw (ema w) en.2
    let vw := runDraw (steeringOf alg o.1) o.2
    exec i s = .next { s with
      hist := w, lastUpdate := s.now, inq := s.inq.tail, draws := vw.2,
      out := s.out ++ driveTrace vw.1.1 vw.1.2 }

/-- R218, R202: a STOP frame reports OK_STOP, sends one bracketed STOP and leaves the queue; nothing else changes. -/
def Obligations.StopFrameResult : Prop :=
  ∀ (s : State) (ctl model : Byte) (rsv : BitVec 16) (x y z : F32), s.Ready →
    exec (.stop ctl model rsv x y z) s = .next { s with
      inq := s.inq.tail, out := s.out ++ [.status .okStop, .act .gateAcq, .act .stop, .act .gateRel] }

/-- R219, R202, R241: a rejected frame reports ERR_CHECKSUM and leaves the queue, whether or not the gate is held; nothing
else changes. -/
def Obligations.BadCrcFrameResult : Prop :=
  ∀ (s : State) (ctl model : Byte) (rsv : BitVec 16) (x y z : F32) (crc : U32),
    s.run = .running → s.now < 2 ^ 64 →
    exec (.badcrc ctl model rsv x y z crc) s = .next { s with
      inq := s.inq.tail, out := s.out ++ [.status .errChecksum] }

/-- R221 with R29, R74, R200 to R204, R218, R219: the FRAME event completes for every payload, as the class of the payload
says, and leaves the queue. `draws` is the model's own counter of free NaN patterns (log 10). -/
def Obligations.FrameEventResult : Prop :=
  ∀ (s : State) (F : Frame), s.Ready →
    (crcOk F = false → exec (.frame F) s = .next { s with
      inq := s.inq.tail, out := s.out ++ [.status .errChecksum] }) ∧
    (crcOk F = true → ctlOf F ≠ 0xFF → exec (.frame F) s = .next { s with
      inq := s.inq.tail, out := s.out ++ [.status .okStop, .act .gateAcq, .act .stop, .act .gateRel] }) ∧
    (crcOk F = true → ctlOf F = 0xFF →
      let r := runDraw (drivePipeline (modelTable (modelOf F)).1 (modelTable (modelOf F)).2 s.now s.hist
        (xOf F) (yOf F) (zOf F)) s.draws
      exec (.frame F) s = .next { s with
        hist := r.1.hist, lastUpdate := s.now, inq := s.inq.tail, draws := r.2,
        out := s.out ++ driveTrace r.1.v r.1.w })

/-- R231, R232, R233, R241: the check. Up to 300 000 µs after the last drive frame it only moves the deadline, whether or
not the gate is held; later it also sends one bracketed STOP. The deadline moves from the previous deadline. -/
def Obligations.TickResult : Prop :=
  ∀ s : State, s.run = .running → s.now < 2 ^ 64 → s.nextDeadline + 50000 < 2 ^ 64 →
    (s.now - s.lastUpdate ≤ 300000 →
      exec .tick s = .next { s with nextDeadline := s.nextDeadline + 50000 }) ∧
    (300000 < s.now - s.lastUpdate → s.gate = .free →
      exec .tick s = .next { s with
        nextDeadline := s.nextDeadline + 50000, out := s.out ++ [.act .gateAcq, .act .stop, .act .gateRel] })

/-- R246: SHUTDOWN sends STOP and RELEASE_HW in two brackets, halts, and discards the queue; nothing else changes. That a
second SHUTDOWN pending in the queue goes with it is the model's choice (log 26). -/
def Obligations.ShutdownResult : Prop :=
  ∀ s : State, s.Ready →
    exec .shutdown s = .next { s with
      run := .halted, inq := [],
      out := s.out ++ [.act .gateAcq, .act .stop, .act .gateRel, .act .gateAcq, .act .releaseHw, .act .gateRel] }

/-- R247, R34: RESET, in either run state and at any time, puts every element of R34 but the gate to its reset value and
sends ENABLE once; the waiting request is served. The values of `resetReq`, `gateTakenAt` and `holds` are the model's
(log 5, log 8, log 16), and so is that a SHUTDOWN pending in the queue goes with it (log 30). -/
def Obligations.ResetResult : Prop :=
  ∀ s : State, s.gate = .free →
    exec .reset s = .next { s with
      now := 0, hist := [], lastUpdate := 0, nextDeadline := 50000, run := .running, inq := [],
      resetReq := false, gateTakenAt := 0, holds := [],
      out := s.out ++ [.act .gateAcq, .act .enable, .act .gateRel] }

/-- R280, R34: the state after power-on is what a RESET leaves that is committed with an empty trace. The gate and the
model's own fields `draws` and `env` are the model's choice (log 15, log 16), and so is that a pending SHUTDOWN goes with
the queue (log 30). -/
def Obligations.PowerOnIsAReset : Prop :=
  ∀ s : State, s.gate = .free → s.out = [] → s.draws = 0 → s.env = [] → exec .reset s = .next State.reset

/-- R241, R14, R247: an operation that sends commands is held while the actuation agent holds the gate, RESET in either run
state: it changes nothing, so its event stays pending: the model's reading of "held" (log 4). `needsGate` says which
operations these are. -/
def Obligations.GatedOperationsWait : Prop :=
  ∀ (s : State) (i : Instr), s.gate = .heldByActuator →
    (s.run = .running → s.now < 2 ^ 64 →
      (i.driveFields.isSome = true → exec i s = .next s) ∧
      (∀ F, i = .frame F → crcOk F = true → exec i s = .next s) ∧
      (∀ ctl model rsv x y z, i = .stop ctl model rsv x y z → exec i s = .next s) ∧
      (i = .tick → 300000 < s.now - s.lastUpdate → s.nextDeadline + 50000 < 2 ^ 64 → exec i s = .next s) ∧
      (i = .shutdown → exec i s = .next s) ∧
      (needsGate i s = true → s.nextDeadline + 50000 < 2 ^ 64 → exec i s = .next s)) ∧
    (i = .reset → exec i s = .next s)

/-- R28, R246, U13, U14: in Halted every instruction but RESET is refused. -/
def Obligations.HaltedBlockRefuses : Prop :=
  ∀ (s : State) (i : Instr), s.run = .halted → i ≠ .reset → exec i s = .refused .halted

/-- R24, R100, U15: an operation whose time, or a tick whose next deadline, would reach 2 ^ 64 is refused. -/
def Obligations.TimeLimitRefuses : Prop :=
  ∀ s : State, s.run = .running →
    (2 ^ 64 ≤ s.now → ∀ i : Instr, i ≠ .reset → exec i s = .refused .timeOverflow) ∧
    (s.now < 2 ^ 64 → 2 ^ 64 ≤ s.nextDeadline + 50000 → exec .tick s = .refused .timeOverflow)

/-! ### Invariants and whole-machine rules -/

/-- R24 to R29, R52, R153, R154, R232, R246: every step keeps the invariant of the state. The clauses on `gateTakenAt` and
`holds` are about the model's own fields (log 5): the holds of the gate lie in the past and do not overlap. -/
def Obligations.StepKeepsTheInvariant : Prop :=
  ∀ s t : State, s.Inv → step s = .next t → t.Inv

/-- R34, R280, R241: the state after power-on meets the invariant, and its trace is well bracketed. The clauses on
`gateTakenAt` and `holds` rest on the values the model gives its own fields at reset (log 5, log 16). -/
def Obligations.ResetMeetsTheInvariant : Prop := State.reset.Inv ∧ wellBracketed State.reset.out

/-- R58, R202, R241: every step keeps the trace well bracketed. -/
def Obligations.StepKeepsBrackets : Prop :=
  ∀ s t : State, wellBracketed s.out → step s = .next t → wellBracketed t.out

/-- R31: the trace is append-only. -/
def Obligations.TraceIsAppendOnly : Prop :=
  ∀ s t : State, step s = .next t → ∃ more, t.out = s.out ++ more

/-- R243, R247: a step that sends ENABLE is a RESET, and sends it once. That one RESET serves every request made before it
is the model's reading (`resetReq` and its value after a RESET: log 8, log 16), and that the queue is then empty of a
pending SHUTDOWN too is its choice (log 30). -/
def Obligations.EnableIsSentByResetOnly : Prop :=
  ∀ s t : State, step s = .next t →
    enables t.out = enables s.out ∨
    (t.out = s.out ++ [.act .gateAcq, .act .enable, .act .gateRel] ∧ s.resetReq = true ∧ t.now = 0 ∧ t.hist = [] ∧
      t.lastUpdate = 0 ∧ t.nextDeadline = 50000 ∧ t.run = .running ∧ t.inq = [] ∧ t.resetReq = false)

/-- R26, R203, R218, R219, R231: only an accepted drive frame, which writes its commit time, or a RESET changes
`lastUpdate`. -/
def Obligations.OnlyDriveOrResetWritesLastUpdate : Prop :=
  ∀ s t : State, step s = .next t → t.lastUpdate ≠ s.lastUpdate →
    (t.lastUpdate = s.now ∧ ∃ v w, t.out = s.out ++ driveTrace v w) ∨
    (t.lastUpdate = 0 ∧ t.now = 0 ∧ t.out = s.out ++ [.act .gateAcq, .act .enable, .act .gateRel])

/-- R25, R158: only a drive frame changes the history, which then starts with an entry of its commit time and holds no
other entry that was not there, or a RESET empties it. -/
def Obligations.OnlyDriveOrResetChangesTheHistory : Prop :=
  ∀ s t : State, s.Inv → step s = .next t →
    t.hist = s.hist ∨
    (∃ e rest, t.hist = e :: rest ∧ e.ts = s.now ∧ rest <+: s.hist ∧ ∃ v w, t.out = s.out ++ driveTrace v w) ∨
    (t.hist = [] ∧ t.now = 0 ∧ t.out = s.out ++ [.act .gateAcq, .act .enable, .act .gateRel])

/-- R28, R235, R246, R269: in Halted a step leaves the run state, the trace, the history, `lastUpdate`, the schedule, the
queue and `draws`, unless it is a RESET, the only way out. Of the rest, time and the gate may change by the world's moves,
and a RESET request may arrive: `resetReq` is the model's reading of it (log 8). -/
def Obligations.OnlyResetLeavesHalted : Prop :=
  ∀ s t : State, s.run = .halted → step s = .next t →
    (t.run = .halted ∧ t.out = s.out ∧ t.hist = s.hist ∧ t.lastUpdate = s.lastUpdate ∧
      t.nextDeadline = s.nextDeadline ∧ t.inq = s.inq ∧ t.draws = s.draws) ∨
    (t.run = .running ∧ s.resetReq = true ∧ t.now = 0 ∧ t.hist = [] ∧
      t.out = s.out ++ [.act .gateAcq, .act .enable, .act .gateRel])

/-- R24, R247, R282: time never decreases but at a RESET, which restarts it. -/
def Obligations.TimeGoesBackOnlyAtReset : Prop :=
  ∀ s t : State, step s = .next t →
    s.now ≤ t.now ∨ (t.now = 0 ∧ s.resetReq = true ∧ t.out = s.out ++ [.act .gateAcq, .act .enable, .act .gateRel])

/-- R232: a step leaves the schedule, moves it by one period from the previous deadline, or is a RESET. -/
def Obligations.DeadlineMovesByOnePeriod : Prop :=
  ∀ s t : State, step s = .next t →
    t.nextDeadline = s.nextDeadline ∨ t.nextDeadline = s.nextDeadline + 50000 ∨
    (t.nextDeadline = 50000 ∧ t.now = 0 ∧ s.resetReq = true)

/-- R234: the stop latency bound. With ticks committed at their deadlines (a block on its own, no event pending, the gate
Free and left alone; that time then passes deadline by deadline is the model's choice, log 3), the first STOP after the
last drive frame at `lastUpdate` is sent by one step, from a state `u` before which nothing was sent, at its deadline: a
multiple of the period that is more than 300 000 and at most 350 000 µs later, so the least one beyond the timeout. -/
def Obligations.StopLatencyBound : Prop :=
  ∀ s : State, s.Inv → s.env = [] → s.inq = [] → s.run = .running → s.gate = .free → s.resetReq = false →
    s.now ≤ s.nextDeadline → s.nextDeadline ≤ s.now + 50000 → s.now ≤ s.lastUpdate + 300000 →
    s.now + 1000000 < 2 ^ 64 →
    ∃ k u t, runSteps k s = .next u ∧ u.out = s.out ∧ u.lastUpdate = s.lastUpdate ∧ u.now = u.nextDeadline ∧
      (∃ j, u.nextDeadline = j * 50000) ∧ step u = .next t ∧ t.now = u.now ∧
      t.out = s.out ++ [.act .gateAcq, .act .stop, .act .gateRel] ∧ t.lastUpdate = s.lastUpdate ∧
      s.lastUpdate + 300000 < t.now ∧ t.now ≤ s.lastUpdate + 350000

/-! ### History -/

/-- R152, R153: the insert trims to the 21 newest entries and pushes; so the length after it is between 1 and 22, and 22
as soon as 21 entries were there. -/
def Obligations.InsertTrimsThenPushes : Prop :=
  ∀ (e : Entry) (h : List Entry),
    insertEntry e h = e :: h.take 21 ∧ 1 ≤ (insertEntry e h).length ∧ (insertEntry e h).length ≤ 22 ∧
    (21 ≤ h.length → (insertEntry e h).length = 22)

/-- R155: on a history in order, the windowed view is exactly the entries of age at most 1 000 000 µs, newest first. -/
def Obligations.WindowIsTheFreshEntries : Prop :=
  ∀ (now : Nat) (h : List Entry), newestFirst h →
    windowedView now h = h.filter (fun e => decide (now - e.ts ≤ 1000000))

/-- R156: a window read in the operation that inserts holds the inserted entry first, no entry older than 1 000 000 µs, and
1 to 22 entries. -/
def Obligations.WindowHoldsTheNewSample : Prop :=
  ∀ (now : Nat) (e : Entry) (h : List Entry), newestFirst h → e.ts = now → (∀ x ∈ h, x.ts ≤ now) →
    let w := windowedView now (insertEntry e h)
    w.head? = some e ∧ (∀ x ∈ w, now - x.ts ≤ 1000000) ∧ 1 ≤ w.length ∧ w.length ≤ 22

/-- R157: reading the window at an earlier time changes no later window. From that earlier time on, samples are inserted in
the order of their commit times, each of them followed by a window read of its own or not; a window read after them is the
same with the early read and without it. -/
def Obligations.EarlyEvictionChangesNoWindow : Prop :=
  ∀ (t u : Nat) (ops : List (Entry × Bool)) (h : List Entry), newestFirst h → (∀ x ∈ h, x.ts ≤ t) → t ≤ u →
    (ops.map (·.1.ts)).Pairwise (· ≤ ·) → (∀ p ∈ ops, t ≤ p.1.ts ∧ p.1.ts ≤ u) →
    windowedView u (insertAll ops (windowedView t h)) = windowedView u (insertAll ops h)

/-! ### binary32 -/

/-- R102, R111: `fRound` rounds the exact value ± m · 2 ^ e to nearest, ties to even, subnormals included, and keeps the
sign, of a result that rounds to zero too. -/
def Obligations.RoundingIsToNearestEven : Prop :=
  ∀ (sign : Bool) (m : Nat) (e : Int), 0 < m →
    RoundsTo ((if sign then -1 else 1) * (m : ℝ) * (2 : ℝ) ^ e) (fRound sign m e) ∧ fSign (fRound sign m e) = sign

/-- R102, R103: the sum and the product of finite operands are the exact ones rounded once, whatever NaN pattern is
at hand; an exact zero sum is +0 but for (−0) + (−0); a sum with one infinite operand, or two of one sign, is that
infinity; a product of an infinity and an operand that is no zero is the infinity of the exclusive-or of the signs; the
difference is the sum with the negated operand. -/
def Obligations.SumsAndProductsAreRoundedOnce : Prop :=
  (∀ nan a b : F32, isFinite a = true → isFinite b = true →
    (f32Value a + f32Value b ≠ 0 → RoundsTo ((f32Value a + f32Value b : ℚ) : ℝ) (faddWith nan a b)) ∧
    (f32Value a + f32Value b = 0 → faddWith nan a b = fPack (fSign a && fSign b) 0) ∧
    RoundsTo ((f32Value a * f32Value b : ℚ) : ℝ) (fmulWith nan a b) ∧
    fSign (fmulWith nan a b) = (fSign a != fSign b)) ∧
  (∀ nan a b : F32, isInf a = true → isNaN b = false →
    (isFinite b = true ∨ fSign a = fSign b → faddWith nan a b = a ∧ faddWith nan b a = a) ∧
    (isZero b = false →
      fmulWith nan a b = fPack (fSign a != fSign b) 0x7F800000 ∧
      fmulWith nan b a = fPack (fSign a != fSign b) 0x7F800000)) ∧
  (∀ (a b : F32) (n : Nat), (runDraw (fsub a b) n).1 = (runDraw (fadd a (fneg b)) n).1)

/-- R102, R103, R104: the quotient by a non-zero finite divisor and the square root of a positive finite operand are the
exact ones rounded once. A non-zero finite value by ±0, and an infinity by a finite value, is the infinity, and a finite
value by an infinity the zero, of the exclusive-or of the signs; the root of ±0 is that zero and that of +∞ is +∞. -/
def Obligations.QuotientsAndRootsAreRoundedOnce : Prop :=
  (∀ nan a b : F32, isFinite a = true → isFinite b = true → isZero b = false →
    RoundsTo ((f32Value a / f32Value b : ℚ) : ℝ) (fdivWith nan a b) ∧
    fSign (fdivWith nan a b) = (fSign a != fSign b)) ∧
  (∀ nan a : F32, isFinite a = true → isZero a = false → fSign a = false →
    RoundsTo (Real.sqrt (f32Value a : ℚ)) (fsqrtWith nan a) ∧ fSign (fsqrtWith nan a) = false) ∧
  (∀ nan a b : F32,
    (isFinite a = true → isZero a = false → isZero b = true →
      fdivWith nan a b = fPack (fSign a != fSign b) 0x7F800000) ∧
    (isInf a = true → isFinite b = true → fdivWith nan a b = fPack (fSign a != fSign b) 0x7F800000) ∧
    (isFinite a = true → isInf b = true → fdivWith nan a b = fPack (fSign a != fSign b) 0)) ∧
  (∀ nan : F32, fsqrtWith nan 0x80000000 = 0x80000000 ∧ fsqrtWith nan 0x00000000 = 0x00000000 ∧
    fsqrtWith nan 0x7F800000 = 0x7F800000)

/-- R103, R104, R109: a NaN operand gives a NaN from every arithmetic primitive, and so do ∞ − ∞, 0 · ∞, 0 / 0, ∞ / ∞ and
the root of a negative value; the NaN is the drawn one (how it is drawn is the model's choice, log 10). -/
def Obligations.InvalidOperationsDrawANaN : Prop :=
  ∀ (a b : F32) (n : Nat),
    (isNaN a = true ∨ isNaN b = true →
      (runDraw (fadd a b) n).1 = anyNaN (Config.nanDraw n) ∧ (runDraw (fsub a b) n).1 = anyNaN (Config.nanDraw n) ∧
      (runDraw (fmul a b) n).1 = anyNaN (Config.nanDraw n) ∧ (runDraw (fdiv a b) n).1 = anyNaN (Config.nanDraw n)) ∧
    (isNaN a = true → (runDraw (fsqrt a) n).1 = anyNaN (Config.nanDraw n)) ∧
    (isInf a = true → isInf b = true → fSign a ≠ fSign b → (runDraw (fadd a b) n).1 = anyNaN (Config.nanDraw n)) ∧
    (isInf a = true → isInf b = true → fSign a = fSign b → (runDraw (fsub a b) n).1 = anyNaN (Config.nanDraw n)) ∧
    (isZero a = true → isInf b = true → (runDraw (fmul a b) n).1 = anyNaN (Config.nanDraw n)) ∧
    (isInf a = true → isZero b = true → (runDraw (fmul a b) n).1 = anyNaN (Config.nanDraw n)) ∧
    (isZero a = true → isZero b = true → (runDraw (fdiv a b) n).1 = anyNaN (Config.nanDraw n)) ∧
    (isInf a = true → isInf b = true → (runDraw (fdiv a b) n).1 = anyNaN (Config.nanDraw n)) ∧
    (isZero a = false → fSign a = true → (runDraw (fsqrt a) n).1 = anyNaN (Config.nanDraw n))

/-- R109, U6: the drawn patterns are NaNs, and every NaN pattern can be drawn. -/
def Obligations.EveryNaNCanBeDrawn : Prop :=
  ∀ a : F32, isNaN a = true ↔ ∃ u : BitVec 32, a = anyNaN u

/-- R105: `fneg` flips bit 31 and `fabs` clears it, and neither changes another bit, on every value, NaNs included. -/
def Obligations.SignOperationsTouchOneBit : Prop :=
  ∀ a : F32, fneg a = a ^^^ 0x80000000#32 ∧ fabs a = a &&& 0x7FFFFFFF#32

/-- R108: a comparison of finite operands is that of their values (so +0 equals −0), ±∞ lie at the ends of the order, any
comparison with a NaN is false, and on other operands `fge` and `feq` say what `flt` says. -/
def Obligations.ComparisonsAreOrdered : Prop :=
  ∀ a b : F32,
    (isNaN a = true ∨ isNaN b = true → feq a b = false ∧ fge a b = false ∧ flt a b = false) ∧
    (isFinite a = true → isFinite b = true →
      (feq a b = true ↔ f32Value a = f32Value b) ∧ (fge a b = true ↔ f32Value b ≤ f32Value a) ∧
      (flt a b = true ↔ f32Value a < f32Value b)) ∧
    (isNaN a = false →
      (flt a 0x7F800000 = true ↔ a ≠ 0x7F800000#32) ∧ (flt 0xFF800000 a = true ↔ a ≠ 0xFF800000#32)) ∧
    (isNaN a = false → isNaN b = false →
      (fge a b = true ↔ flt a b = false) ∧ (feq a b = true ↔ flt a b = false ∧ flt b a = false))

/-- R106, R107: `psqrt` is the root of the absolute value, never gives a NaN for an operand that is none, and
psqrt(−0) = +0; `safediv` gives the sentinel for ±0 whatever a is, and a / b otherwise, a NaN for a NaN b. -/
def Obligations.ProtectedPrimitives : Prop :=
  ∀ (a b : F32) (n : Nat),
    runDraw (psqrt a) n = runDraw (fsqrt (fabs a)) n ∧
    (isNaN a = false → isNaN (runDraw (psqrt a) n).1 = false) ∧
    (runDraw (psqrt 0x80000000) n).1 = 0x00000000 ∧
    (b = 0x00000000 ∨ b = 0x80000000 → (runDraw (safediv a b) n).1 = 0x551184E7) ∧
    (b ≠ 0x00000000 → b ≠ 0x80000000 → (runDraw (safediv a b) n).1 = (runDraw (fdiv a b) n).1) ∧
    (isNaN b = true → isNaN (runDraw (safediv a b) n).1 = true)

/-- R110 `ATAN2_RANGE` and `ATAN2_ODD`: FN_ATAN2 of non-NaN operands lies within ±π₃₂, has the stated values on the axes,
lies within ±π₃₂/2 for x > 0, is a NaN for a NaN operand, and is odd in y, whatever the raw function is (log 11). -/
def Obligations.Atan2HasItsNamedProperties : Prop :=
  ∀ y x : F32,
    (isNaN y = false → isNaN x = false → fMag (fnAtan2 y x) ≤ 0x40490FDB) ∧
    (isZero y = true → isNaN x = false → fSign x = false → fnAtan2 y x = y) ∧
    (isZero y = true → isNaN x = false → fSign x = true → fnAtan2 y x = fPack (fSign y) 0x40490FDB) ∧
    (isZero y = false → isNaN y = false → isZero x = true → fnAtan2 y x = fPack (fSign y) 0x3FC90FDB) ∧
    (isZero y = false → isNaN y = false → flt Config.zero x = true → fMag (fnAtan2 y x) ≤ 0x3FC90FDB) ∧
    (isNaN y = true ∨ isNaN x = true → isNaN (fnAtan2 y x) = true) ∧
    fnAtan2 (fneg y) x = fneg (fnAtan2 y x)

/-- R110 `SINCOS_ZERO`: FN_SIN(±0) = ±0, FN_COS(±0) = 1, both lie within ±1 on finite operands and are NaNs on the
others, whatever the raw functions are (log 11). -/
def Obligations.SinCosHaveTheirNamedProperties : Prop :=
  ∀ a : F32,
    (isZero a = true → fnSin a = a ∧ fnCos a = 0x3F800000) ∧
    (isFinite a = true → fMag (fnSin a) ≤ 0x3F800000 ∧ fMag (fnCos a) ≤ 0x3F800000) ∧
    (isNaN a = true ∨ isInf a = true → isNaN (fnSin a) = true ∧ isNaN (fnCos a) = true)

/-- R110 `POW_ZERO`: FN_POW(+0, b) = +∞ for b < 0 that is no odd integer, a NaN for a NaN base and b ≠ 0, and a positive
value for a positive finite base and b < 0; the value +0 at (+∞, b) for b < 0 is the one of two that the model takes
(log 11). -/
def Obligations.PowHasItsNamedProperties : Prop :=
  ∀ a b : F32,
    (flt b Config.zero = true → isOddInteger b = false → fnPow 0x00000000 b = 0x7F800000) ∧
    (isNaN a = true → feq b Config.zero = false → isNaN (fnPow a b) = true) ∧
    (flt b Config.zero = true → fnPow 0x7F800000 b = 0x00000000) ∧
    (flt Config.zero a = true → isFinite a = true → flt b Config.zero = true →
      flt Config.zero (fnPow a b) = true)

/-- R181: the reference values are finite and the centre is 0.0, which the model reads as +0 (log 12). -/
def Obligations.GridIsFiniteWithZeroCentre : Prop :=
  (∀ r c : Fin 3, isFinite (gridAlpha r c) = true ∧ isFinite (gridBeta r c) = true) ∧
  gridAlpha 1 1 = 0x00000000 ∧ gridBeta 1 1 = 0x00000000

/-! ### Filters and steering -/

/-- R171, R172 (N = 1): both filters give a single sample back, with −0 components as +0. -/
def Obligations.FiltersOfASingleSample : Prop :=
  ∀ (e : Entry) (n : Nat), isNaN e.ax = false → isNaN e.ay = false → isNaN e.az = false →
    let fix (a : F32) : F32 := if a = 0x80000000#32 then 0x00000000#32 else a
    (runDraw (sma [e]) n).1 = (fix e.ax, fix e.ay, fix e.az) ∧
    (runDraw (ema [e]) n).1 = (fix e.ax, fix e.ay, fix e.az)

/-- R159 (its NaN half): a NaN axis anywhere in the window makes that component of SMA and EMA NaN. -/
def Obligations.NaNEntriesPoisonTheFilters : Prop :=
  ∀ (w : List Entry) (e : Entry) (n : Nat), e ∈ w →
    (isNaN e.ax = true → isNaN (runDraw (sma w) n).1.1 = true ∧ isNaN (runDraw (ema w) n).1.1 = true) ∧
    (isNaN e.ay = true → isNaN (runDraw (sma w) n).1.2.1 = true ∧ isNaN (runDraw (ema w) n).1.2.1 = true) ∧
    (isNaN e.az = true → isNaN (runDraw (sma w) n).1.2.2 = true ∧ isNaN (runDraw (ema w) n).1.2.2 = true)

/-- R182 (corner case): at each of the nine grid points the bilinear result equals that point's reference values. -/
def Obligations.BilinearReproducesTheGrid : Prop :=
  ∀ (r c : Fin 3) (n : Nat),
    let ab := (runDraw (bilinear (Config.gridPhi r) (Config.gridTheta c)) n).1
    feq ab.1 (gridAlpha r c) = true ∧ feq ab.2 (gridBeta r c) = true

/-- R205 to R207, R214 to R217 (examples), W9: an orientation straight up sends the velocity pair (+0, +0) under every
bilinear and symbolic code, for every grid and every function with the named properties; under the codes with a filter
when every entry of the history is older than the window, so that the window holds the new sample alone. That the pair is
+0 rests on the model's reading of the grid's centre 0.0 as +0 (log 12). -/
def Obligations.StraightUpStandsStill : Prop :=
  ∀ (s : State) (rsv : BitVec 16) (l4 : BitVec 4) (l5 : BitVec 5) (l6 : BitVec 6) (l7 : BitVec 7) (i : Instr), s.Ready →
    (i ∈ [.driveM0 rsv 0 0 0x3F800000, .driveDflt09 rsv 0 0 0x3F800000, .driveDflt0A rsv 0 0 0x3F800000,
        .driveDflt0B rsv 0 0 0x3F800000, .driveDflt0F rsv 0 0 0x3F800000, .driveDflt10 l4 rsv 0 0 0x3F800000,
        .driveDflt20 l5 rsv 0 0 0x3F800000, .driveDflt40 l6 rsv 0 0 0x3F800000,
        .driveDflt80 l7 rsv 0 0 0x3F800000, Instr.driveM12 rsv 0 0 0x3F800000] ∨
      ((∀ e ∈ s.hist, 1000000 < s.now - e.ts) ∧
        i ∈ [.driveM1 rsv 0 0 0x3F800000, .driveM2 rsv 0 0 0x3F800000, .driveM13 rsv 0 0 0x3F800000,
          Instr.driveM14 rsv 0 0 0x3F800000])) →
    ∃ t, exec i s = .next t ∧ t.out = s.out ++ driveTrace 0x00000000 0x00000000

/-- R184, R208, R211 (examples): straight up stands exactly on a grid point, and the IDW codes send NaN velocities; the
watchdog is refreshed all the same (R203, R286). -/
def Obligations.StraightUpUnderIdwSendsNaN : Prop :=
  ∀ (s : State) (rsv : BitVec 16) (i : Instr), s.Ready →
    i ∈ [.driveM3 rsv 0 0 0x3F800000, Instr.driveM6 rsv 0 0 0x3F800000] →
    ∃ t v w, exec i s = .next t ∧ t.out = s.out ++ driveTrace v w ∧ isNaN v = true ∧ isNaN w = true ∧
      t.lastUpdate = s.now

/-- R151 (corner cases), R195 (its NaN case), R260, R261: what a degenerate sample is normalised to, and that a NaN passes
through the velocity transform. A zero vector and a NaN component make all three axes NaN; with an infinite component, or
finite ones whose sum of squares overflows, every finite axis becomes the zero of its sign, and an infinite one a NaN (the
sum, computed in the rule's order, overflows with one component of 2 ^ 64 or more, and with two whose squares are 2 ^ 127
or more); with components whose squares all underflow every non-zero axis becomes the infinity of its sign and every zero
one a NaN. A NaN in either input of the velocity transform gives NaN in both outputs. -/
def Obligations.DegenerateValuesPropagate : Prop :=
  (∀ (nan x y z : F32) (n : Nat),
    let o := (runDraw (normalize x y z) n).1
    let axes := [(x, o.1), (y, o.2.1), (z, o.2.2)]
    (isZero x = true → isZero y = true → isZero z = true → ∀ a ∈ axes, isNaN a.2 = true) ∧
    (isNaN x = true ∨ isNaN y = true ∨ isNaN z = true → ∀ a ∈ axes, isNaN a.2 = true) ∧
    (isNaN x = false → isNaN y = false → isNaN z = false → isInf x = true ∨ isInf y = true ∨ isInf z = true →
      ∀ a ∈ axes, (isInf a.1 = true → isNaN a.2 = true) ∧ (isFinite a.1 = true → a.2 = fPack (fSign a.1) 0)) ∧
    (isFinite x = true → isFinite y = true → isFinite z = true →
      isInf (faddWith nan (faddWith nan (fmulWith nan x x) (fmulWith nan y y)) (fmulWith nan z z)) = true →
      ∀ a ∈ axes, a.2 = fPack (fSign a.1) 0) ∧
    (isFinite x = true → isFinite y = true → isFinite z = true →
      2 ^ 64 ≤ |f32Value x| ∨ 2 ^ 64 ≤ |f32Value y| ∨ 2 ^ 64 ≤ |f32Value z| → ∀ a ∈ axes, a.2 = fPack (fSign a.1) 0) ∧
    (isFinite x = true → isFinite y = true → isFinite z = true →
      (2 ^ 127 ≤ f32Value x ^ 2 ∧ 2 ^ 127 ≤ f32Value y ^ 2) ∨ (2 ^ 127 ≤ f32Value x ^ 2 ∧ 2 ^ 127 ≤ f32Value z ^ 2) ∨
        (2 ^ 127 ≤ f32Value y ^ 2 ∧ 2 ^ 127 ≤ f32Value z ^ 2) →
      ∀ a ∈ axes, a.2 = fPack (fSign a.1) 0) ∧
    (isFinite x = true → isFinite y = true → isFinite z = true →
      |f32Value x| * 2 ^ 75 ≤ 1 → |f32Value y| * 2 ^ 75 ≤ 1 → |f32Value z| * 2 ^ 75 ≤ 1 →
      ∀ a ∈ axes, (isZero a.1 = true → isNaN a.2 = true) ∧
        (isZero a.1 = false → a.2 = fPack (fSign a.1) 0x7F800000))) ∧
  (∀ (alpha beta : F32) (n : Nat), isNaN alpha = true ∨ isNaN beta = true →
    isNaN (runDraw (velocity alpha beta) n).1.1 = true ∧ isNaN (runDraw (velocity alpha beta) n).1.2 = true)
end

