-- ==== Sys2Proof/Laws/Float.lean ====
section
/-! SUPPORT. Laws/Float.lean: running a computation that draws NaN patterns, and the small lemmas of the binary32
format. -/

namespace Sys2Proof

variable {α β : Type}

/-- The n-th NaN pattern of a run. -/
def nanAt (n : Nat) : F32 := anyNaN (Config.nanDraw n)

/-! ### Running a computation -/

@[simp] theorem runDraw_pure (a : α) (n : Nat) : runDraw (pure a) n = (a, n) := rfl

@[simp] theorem runDraw_bind (d : Draw α) (k : α → Draw β) (n : Nat) :
    runDraw (d >>= k) n = runDraw (k (runDraw d n).1) (runDraw d n).2 := rfl

@[simp] theorem runDraw_drawNaN (n : Nat) : runDraw drawNaN n = (nanAt n, n + 1) := rfl

@[simp] theorem runDraw_fadd (a b : F32) (n : Nat) : runDraw (fadd a b) n = (faddWith (nanAt n) a b, n + 1) := rfl

@[simp] theorem runDraw_fsub (a b : F32) (n : Nat) :
    runDraw (fsub a b) n = (faddWith (nanAt n) a (fneg b), n + 1) := rfl

@[simp] theorem runDraw_fmul (a b : F32) (n : Nat) : runDraw (fmul a b) n = (fmulWith (nanAt n) a b, n + 1) := rfl

@[simp] theorem runDraw_fdiv (a b : F32) (n : Nat) : runDraw (fdiv a b) n = (fdivWith (nanAt n) a b, n + 1) := rfl

@[simp] theorem runDraw_fsqrt (a : F32) (n : Nat) : runDraw (fsqrt a) n = (fsqrtWith (nanAt n) a, n + 1) := rfl

@[simp] theorem runDraw_psqrt (a : F32) (n : Nat) :
    runDraw (psqrt a) n = (fsqrtWith (nanAt n) (fabs a), n + 1) := rfl

/-! ### The fields of a packed value -/

theorem fPack_toNat (s : Bool) (m : Nat) : (fPack s m).toNat = s.toNat * 2 ^ 31 + m % 2 ^ 31 := by
  have h : m % 2 ^ 31 < 2 ^ 31 := Nat.mod_lt _ (by decide)
  rw [fPack, BitVec.toNat_ofNat]
  cases s
  · simp; omega
  · simp; omega

theorem fMag_lt (a : F32) : fMag a < 2 ^ 31 := Nat.mod_lt _ (by decide)

@[simp] theorem fMag_fPack (s : Bool) (m : Nat) : fMag (fPack s m) = m % 2 ^ 31 := by
  cases s <;> simp [fMag, fPack_toNat]

@[simp] theorem fSign_fPack (s : Bool) (m : Nat) : fSign (fPack s m) = s := by
  have h : m % 2 ^ 31 < 2 ^ 31 := Nat.mod_lt _ (by decide)
  rw [fSign, fPack_toNat]
  cases s
  · simp; omega
  · simp

theorem fExpo_eq_mag (a : F32) : fExpo a = fMag a / 2 ^ 23 := by
  unfold fExpo fMag; omega

theorem fFrac_eq_mag (a : F32) : fFrac a = fMag a % 2 ^ 23 := by
  unfold fFrac fMag; omega

/-- A value is its sign and its magnitude bits. -/
@[simp] theorem fPack_sign_mag (a : F32) : fPack (fSign a) (fMag a) = a := by
  apply BitVec.eq_of_toNat_eq
  have h := a.isLt
  rw [fPack_toNat]
  unfold fMag fSign
  by_cases hs : 2 ^ 31 ≤ a.toNat
  · rw [decide_eq_true hs, Bool.toNat_true]; omega
  · rw [decide_eq_false hs, Bool.toNat_false]; omega

/-- Two values with the same sign and magnitude bits are equal. -/
theorem f32_ext {a b : F32} (hs : fSign a = fSign b) (hm : fMag a = fMag b) : a = b := by
  rw [← fPack_sign_mag a, ← fPack_sign_mag b, hs, hm]

theorem isNaN_iff (a : F32) : isNaN a = true ↔ infMag < fMag a := by
  have h := fMag_lt a
  simp only [isNaN, fExpo_eq_mag, fFrac_eq_mag, infMag, Bool.and_eq_true, beq_iff_eq, bne_iff_ne]
  omega

theorem isInf_iff (a : F32) : isInf a = true ↔ fMag a = infMag := by
  have h := fMag_lt a
  simp only [isInf, fExpo_eq_mag, fFrac_eq_mag, infMag, Bool.and_eq_true, beq_iff_eq]
  omega

theorem isFinite_iff (a : F32) : isFinite a = true ↔ fMag a < infMag := by
  have h := fMag_lt a
  simp only [isFinite, fExpo_eq_mag, infMag, bne_iff_ne]
  omega

theorem isZero_iff (a : F32) : isZero a = true ↔ fMag a = 0 := by simp [isZero]

@[simp] theorem isNaN_anyNaN (u : BitVec 32) : isNaN (anyNaN u) = true := by
  have hf : fFrac u < 2 ^ 23 := Nat.mod_lt _ (by decide)
  rw [isNaN_iff, anyNaN, fMag_fPack]
  unfold infMag
  split <;> omega

@[simp] theorem isNaN_nanAt (n : Nat) : isNaN (nanAt n) = true := isNaN_anyNaN _

@[simp] theorem fMag_fneg (a : F32) : fMag (fneg a) = fMag a := by
  simpa [fneg] using fMag_lt a

@[simp] theorem fSign_fneg (a : F32) : fSign (fneg a) = !fSign a := by simp [fneg]

@[simp] theorem fMag_fabs (a : F32) : fMag (fabs a) = fMag a := by
  simpa [fabs] using fMag_lt a

@[simp] theorem fSign_fabs (a : F32) : fSign (fabs a) = false := by simp [fabs]

@[simp] theorem fneg_fneg (a : F32) : fneg (fneg a) = a := f32_ext (by simp) (by simp)

/-- `fneg` keeps a NaN a NaN (R105). -/
@[simp] theorem isNaN_fneg (a : F32) : isNaN (fneg a) = isNaN a := by
  rw [Bool.eq_iff_iff, isNaN_iff, isNaN_iff, fMag_fneg]

/-- `fabs` keeps a NaN a NaN (R105). -/
@[simp] theorem isNaN_fabs (a : F32) : isNaN (fabs a) = isNaN a := by
  rw [Bool.eq_iff_iff, isNaN_iff, isNaN_iff, fMag_fabs]

end Sys2Proof
end

