-- ==== Sys2Proof/Laws/Datapath.lean ====
section
/-! SUPPORT. Laws/Datapath.lean: what running each computation of the datapath gives, said once; later proofs rewrite
with these and do not unfold the computation. -/

namespace Sys2Proof.Machine

/-- R151: the length of a raw sample, when the first NaN drawn is the n-th. -/
def lengthAt (n : Nat) (x y z : F32) : F32 :=
  fsqrtWith (nanAt (n + 5))
    (faddWith (nanAt (n + 4))
      (faddWith (nanAt (n + 3)) (fmulWith (nanAt n) x x) (fmulWith (nanAt (n + 1)) y y))
      (fmulWith (nanAt (n + 2)) z z))

theorem runDraw_normalize (x y z : F32) (n : Nat) :
    runDraw (normalize x y z) n =
      ((fdivWith (nanAt (n + 6)) x (lengthAt n x y z), fdivWith (nanAt (n + 7)) y (lengthAt n x y z),
        fdivWith (nanAt (n + 8)) z (lengthAt n x y z)), n + 9) := by
  simp only [normalize, lengthAt, runDraw_bind, runDraw_pure, runDraw_fmul, runDraw_fadd, runDraw_fsqrt, runDraw_fdiv]

theorem runDraw_newEntry (now : Nat) (x y z : F32) (n : Nat) :
    runDraw (newEntry now x y z) n =
      (let a := runDraw (normalize x y z) n
       (⟨a.1.1, a.1.2.1, a.1.2.2, now⟩, a.2)) := by
  simp only [newEntry, runDraw_bind, runDraw_pure]

/-- The entry of a sample carries its commit time (R152). -/
@[simp] theorem newEntry_ts (now : Nat) (x y z : F32) (n : Nat) :
    (runDraw (newEntry now x y z) n).1.ts = now := by
  simp only [runDraw_newEntry]

/-! ### Filters -/

theorem runDraw_smaSums_nil (s : F32 × F32 × F32) (n : Nat) : runDraw (smaSums [] s) n = (s, n) := rfl

theorem runDraw_smaSums_cons (e : Entry) (w : List Entry) (s : F32 × F32 × F32) (n : Nat) :
    runDraw (smaSums (e :: w) s) n =
      runDraw (smaSums w (faddWith (nanAt n) s.1 e.ax, faddWith (nanAt (n + 1)) s.2.1 e.ay,
        faddWith (nanAt (n + 2)) s.2.2 e.az)) (n + 3) := by
  simp only [smaSums, runDraw_bind, runDraw_fadd]

theorem runDraw_sma (w : List Entry) (n : Nat) :
    runDraw (sma w) n =
      (let s := runDraw (smaSums w (Config.zero, Config.zero, Config.zero)) n
       ((fdivWith (nanAt s.2) s.1.1 (toF32 w.length), fdivWith (nanAt (s.2 + 1)) s.1.2.1 (toF32 w.length),
        fdivWith (nanAt (s.2 + 2)) s.1.2.2 (toF32 w.length)), s.2 + 3)) := by
  simp only [sma, runDraw_bind, runDraw_pure, runDraw_fdiv]

theorem runDraw_emaSums_nil (q wt : F32) (s : F32 × F32 × F32 × F32) (n : Nat) :
    runDraw (emaSums q [] wt s) n = (s, n) := rfl

theorem runDraw_emaSums_cons (q wt : F32) (e : Entry) (w : List Entry) (s : F32 × F32 × F32 × F32) (n : Nat) :
    runDraw (emaSums q (e :: w) wt s) n =
      runDraw (emaSums q w (fmulWith (nanAt (n + 7)) wt q)
        (faddWith (nanAt (n + 1)) s.1 (fmulWith (nanAt n) wt e.ax),
         faddWith (nanAt (n + 3)) s.2.1 (fmulWith (nanAt (n + 2)) wt e.ay),
         faddWith (nanAt (n + 5)) s.2.2.1 (fmulWith (nanAt (n + 4)) wt e.az),
         faddWith (nanAt (n + 6)) s.2.2.2 wt)) (n + 8) := by
  simp only [emaSums, runDraw_bind, runDraw_fadd, runDraw_fmul]

/-- `decay` and `1 − decay` of a window of k entries (R172). -/
def emaFactor (n k : Nat) : F32 :=
  faddWith (nanAt (n + 1)) Config.one (fneg (fdivWith (nanAt n) Config.two (toF32 (k + 1))))

theorem runDraw_ema (w : List Entry) (n : Nat) :
    runDraw (ema w) n =
      (let s := runDraw (emaSums (emaFactor n w.length) w Config.one
        (Config.zero, Config.zero, Config.zero, Config.zero)) (n + 2)
       ((fdivWith (nanAt s.2) s.1.1 s.1.2.2.2, fdivWith (nanAt (s.2 + 1)) s.1.2.1 s.1.2.2.2,
        fdivWith (nanAt (s.2 + 2)) s.1.2.2.1 s.1.2.2.2), s.2 + 3)) := by
  simp only [ema, emaDecay, emaFactor, runDraw_bind, runDraw_pure, runDraw_fdiv, runDraw_fsub]

theorem runDraw_applyFilter_none (now : Nat) (e : Entry) (h : List Entry) (n : Nat) :
    runDraw (applyFilter .none now e h) n = ((e.axes, h), n) := by
  simp only [applyFilter, runDraw_pure]

theorem runDraw_applyFilter_sma (now : Nat) (e : Entry) (h : List Entry) (n : Nat) :
    runDraw (applyFilter .sma now e h) n =
      (let o := runDraw (sma (windowedView now h)) n
       ((o.1, windowedView now h), o.2)) := by
  simp only [applyFilter, runDraw_bind, runDraw_pure]

theorem runDraw_applyFilter_ema (now : Nat) (e : Entry) (h : List Entry) (n : Nat) :
    runDraw (applyFilter .ema now e h) n =
      (let o := runDraw (ema (windowedView now h)) n
       ((o.1, windowedView now h), o.2)) := by
  simp only [applyFilter, runDraw_bind, runDraw_pure]

/-! ### Steering -/

theorem runDraw_angles (ox oy oz : F32) (n : Nat) :
    runDraw (angles (ox, oy, oz)) n =
      (let phir := fnAtan2 oy oz
       let den := faddWith (nanAt (n + 3)) (fmulWith (nanAt (n + 1)) oy (fnSin phir))
         (fmulWith (nanAt (n + 2)) oz (fnCos phir))
       ((fmulWith (nanAt n) phir Config.rad2deg,
         fneg (fmulWith (nanAt (n + 4)) (fnAtan2 (fneg ox) den) Config.rad2deg)), n + 5)) := by
  simp only [angles, runDraw_bind, runDraw_pure, runDraw_fmul, runDraw_fadd]

/-- `lerp` when the first NaN drawn is the n-th. -/
def lerpAt (n : Nat) (a b s : F32) : F32 :=
  faddWith (nanAt (n + 3)) (fmulWith (nanAt (n + 1)) (faddWith (nanAt n) Config.one (fneg s)) a)
    (fmulWith (nanAt (n + 2)) s b)

theorem runDraw_lerp (a b s : F32) (n : Nat) : runDraw (lerp a b s) n = (lerpAt n a b s, n + 4) := by
  simp only [lerp, lerpAt, runDraw_bind, runDraw_fsub, runDraw_fmul, runDraw_fadd]

theorem runDraw_bilinearOf (g : Fin 3 → Fin 3 → F32) (r c : Fin 3 × Fin 3) (u v : F32) (n : Nat) :
    runDraw (bilinearOf g r c u v) n =
      (lerpAt (n + 8) (lerpAt n (g r.1 c.1) (g r.2 c.1) u) (lerpAt (n + 4) (g r.1 c.2) (g r.2 c.2) u) v, n + 12) := by
  simp only [bilinearOf, runDraw_bind, runDraw_lerp]

/-- The position of an angle in its quadrant, from 0 to 1 (R182), when the first NaN drawn is the n-th. -/
def unitAt (n : Nat) (angle low : F32) : F32 :=
  fdivWith (nanAt (n + 1)) (faddWith (nanAt n) angle (fneg low)) Config.ninety

theorem runDraw_bilinear (phi theta : F32) (n : Nat) :
    runDraw (bilinear phi theta) n =
      (let r := quadrant phi
       let c := quadrant theta
       let u := unitAt n phi (Config.gridPhi r.1)
       let v := unitAt (n + 2) theta (Config.gridTheta c.1)
       (((runDraw (bilinearOf gridAlpha r c u v) (n + 4)).1, (runDraw (bilinearOf gridBeta r c u v) (n + 16)).1),
         n + 28)) := by
  simp only [bilinear, unitAt, runDraw_bind, runDraw_pure, runDraw_fsub, runDraw_fdiv, runDraw_bilinearOf]

/-- The weight of a grid point (R184) when the first NaN drawn is the n-th. -/
def idwWeightAt (n : Nat) (p phi theta : F32) (rc : Fin 3 × Fin 3) : F32 :=
  let dp := faddWith (nanAt n) phi (fneg (Config.gridPhi rc.1))
  let dt := faddWith (nanAt (n + 1)) theta (fneg (Config.gridTheta rc.2))
  fnPow (fsqrtWith (nanAt (n + 5))
    (faddWith (nanAt (n + 4)) (fmulWith (nanAt (n + 2)) dp dp) (fmulWith (nanAt (n + 3)) dt dt))) (fneg p)

theorem runDraw_idwWeight (p phi theta : F32) (rc : Fin 3 × Fin 3) (n : Nat) :
    runDraw (idwWeight p phi theta rc) n = (idwWeightAt n p phi theta rc, n + 6) := by
  simp only [idwWeight, idwWeightAt, runDraw_bind, runDraw_pure, runDraw_fsub, runDraw_fmul, runDraw_fadd,
    runDraw_fsqrt]

theorem runDraw_idwSums_nil (p phi theta : F32) (s : F32 × F32 × F32) (n : Nat) :
    runDraw (idwSums p phi theta [] s) n = (s, n) := rfl

theorem runDraw_idwSums_cons (p phi theta : F32) (rc : Fin 3 × Fin 3) (rest : List (Fin 3 × Fin 3))
    (s : F32 × F32 × F32) (n : Nat) :
    runDraw (idwSums p phi theta (rc :: rest) s) n =
      (let w := idwWeightAt n p phi theta rc
       runDraw (idwSums p phi theta rest
        (faddWith (nanAt (n + 6)) s.1 w,
         faddWith (nanAt (n + 8)) s.2.1 (fmulWith (nanAt (n + 7)) w (gridAlpha rc.1 rc.2)),
         faddWith (nanAt (n + 10)) s.2.2 (fmulWith (nanAt (n + 9)) w (gridBeta rc.1 rc.2)))) (n + 11)) := by
  simp only [idwSums, runDraw_bind, runDraw_idwWeight, runDraw_fadd, runDraw_fmul]

theorem runDraw_shepardIDW (p phi theta : F32) (n : Nat) :
    runDraw (shepardIDW p phi theta) n =
      (let s := runDraw (idwSums p phi theta gridPoints (Config.zero, Config.zero, Config.zero)) n
       ((fdivWith (nanAt s.2) s.1.2.1 s.1.1, fdivWith (nanAt (s.2 + 1)) s.1.2.2 s.1.1), s.2 + 2)) := by
  simp only [shepardIDW, runDraw_bind, runDraw_pure, runDraw_fdiv]

theorem runDraw_symbolicModelB (phi theta : F32) (n : Nat) :
    runDraw (symbolicModelB phi theta) n =
      (let p := fdivWith (nanAt n) phi Config.symbScale
       let t := fdivWith (nanAt (n + 1)) theta Config.symbScale
       let a := runDraw (symbolicAlpha p t) (n + 2)
       let b := runDraw (symbolicBeta p t) a.2
       ((a.1, b.1), b.2)) := by
  simp only [symbolicModelB, runDraw_bind, runDraw_pure, runDraw_fdiv]

theorem runDraw_velocity (alpha beta : F32) (n : Nat) :
    runDraw (velocity alpha beta) n =
      (let left := fmulWith (nanAt (n + 1)) Config.vMax (faddWith (nanAt n) alpha (fneg beta))
       let right := fmulWith (nanAt (n + 3)) Config.vMax (faddWith (nanAt (n + 2)) alpha beta)
       ((fmulWith (nanAt (n + 5)) Config.transScale (faddWith (nanAt (n + 4)) left right),
         fdivWith (nanAt (n + 7)) (faddWith (nanAt (n + 6)) right (fneg left)) Config.rotDiv), n + 8)) := by
  simp only [velocity, runDraw_bind, runDraw_pure, runDraw_fsub, runDraw_fadd, runDraw_fmul, runDraw_fdiv]

theorem runDraw_steeringOf (alg : Algorithm) (o : F32 × F32 × F32) (n : Nat) :
    runDraw (steeringOf alg o) n =
      (let angle := runDraw (angles o) n
       let steering := runDraw (steer alg angle.1.1 angle.1.2) angle.2
       runDraw (velocity steering.1.1 steering.1.2) steering.2) := by
  simp only [steeringOf, runDraw_bind]

/-- R201: the pipeline as the insert, the filter and the steering. -/
theorem runDraw_drivePipeline (alg : Algorithm) (filt : Filter) (now : Nat) (h : List Entry) (x y z : F32) (n : Nat) :
    runDraw (drivePipeline alg filt now h x y z) n =
      (let en := runDraw (newEntry now x y z) n
       let o := runDraw (applyFilter filt now en.1 (insertEntry en.1 h)) en.2
       let vw := runDraw (steeringOf alg o.1.1) o.2
       (⟨vw.1.1, vw.1.2, o.1.2⟩, vw.2)) := by
  simp only [drivePipeline, runDraw_bind, runDraw_pure, steeringOf]

end Sys2Proof.Machine
end

