-- ==== Sys2Proof/Laws/Frame.lean ====
section
/-! SUPPORT. Laws/Frame.lean: the fields of a frame built from its fields, a frame rebuilt from its fields, and what the
computed checksum depends on. -/

namespace Sys2Proof

theorem frameByte_toNat (F : Frame) (k : Nat) :
    (frameByte F k).toNat = F.toNat / 2 ^ (152 - 8 * k) % 2 ^ 8 := by
  rw [frameByte, BitVec.extractLsb'_toNat, Nat.shiftRight_eq_div_pow]

theorem append_bytes_toNat (a b c d : Byte) :
    (a ++ b ++ c ++ d : U32).toNat = a.toNat * 2 ^ 24 + b.toNat * 2 ^ 16 + c.toNat * 2 ^ 8 + d.toNat := by
  have h1 := b.isLt
  have h2 := c.isLt
  have h3 := d.isLt
  repeat rw [BitVec.toNat_append]
  repeat rw [← Nat.shiftLeft_add_eq_or_of_lt (by assumption)]
  simp only [Nat.shiftLeft_eq]
  omega

/-- `BE32(B, k)` as a number, for each of the four words of a frame the block reads (R9). -/
theorem be32_toNat (F : Frame) (k : Nat) (hk : k = 4 ∨ k = 8 ∨ k = 12 ∨ k = 16) :
    (be32 F k).toNat = F.toNat / 2 ^ (128 - 8 * k) % 2 ^ 32 := by
  rw [be32, append_bytes_toNat]
  simp only [frameByte_toNat]
  rcases hk with rfl | rfl | rfl | rfl <;> norm_num <;> omega

theorem rsvOf_toNat (F : Frame) : (rsvOf F).toNat = F.toNat / 2 ^ 128 % 2 ^ 16 := by
  have h := (frameByte F 3).isLt
  rw [rsvOf, BitVec.toNat_append, ← Nat.shiftLeft_add_eq_or_of_lt h, Nat.shiftLeft_eq]
  simp only [frameByte_toNat]
  norm_num
  omega

section Fields

variable (ctl model : Byte) (rsv : BitVec 16) (x y z : F32) (crc : U32)

theorem mkFrame_toNat : (mkFrame ctl model rsv x y z crc).toNat =
    ctl.toNat * 2 ^ 152 + model.toNat * 2 ^ 144 + rsv.toNat * 2 ^ 128 + x.toNat * 2 ^ 96 + y.toNat * 2 ^ 64
      + z.toNat * 2 ^ 32 + crc.toNat := by
  have h1 := crc.isLt
  have h2 := z.isLt
  have h3 := y.isLt
  have h4 := x.isLt
  have h5 := rsv.isLt
  have h6 := model.isLt
  unfold mkFrame
  repeat rw [BitVec.toNat_append]
  repeat rw [← Nat.shiftLeft_add_eq_or_of_lt (by assumption)]
  simp only [Nat.shiftLeft_eq]
  ring

@[simp] theorem ctlOf_mkFrame : ctlOf (mkFrame ctl model rsv x y z crc) = ctl := by
  apply BitVec.eq_of_toNat_eq
  rw [ctlOf, frameByte_toNat, mkFrame_toNat]
  have h1 := crc.isLt
  have h2 := z.isLt
  have h3 := y.isLt
  have h4 := x.isLt
  have h5 := rsv.isLt
  have h6 := model.isLt
  have h7 := ctl.isLt
  norm_num
  omega

@[simp] theorem modelOf_mkFrame : modelOf (mkFrame ctl model rsv x y z crc) = model := by
  apply BitVec.eq_of_toNat_eq
  rw [modelOf, frameByte_toNat, mkFrame_toNat]
  have h1 := crc.isLt
  have h2 := z.isLt
  have h3 := y.isLt
  have h4 := x.isLt
  have h5 := rsv.isLt
  have h6 := model.isLt
  norm_num
  omega

@[simp] theorem rsvOf_mkFrame : rsvOf (mkFrame ctl model rsv x y z crc) = rsv := by
  apply BitVec.eq_of_toNat_eq
  rw [rsvOf_toNat, mkFrame_toNat]
  have h1 := crc.isLt
  have h2 := z.isLt
  have h3 := y.isLt
  have h4 := x.isLt
  have h5 := rsv.isLt
  omega

@[simp] theorem xOf_mkFrame : xOf (mkFrame ctl model rsv x y z crc) = x := by
  apply BitVec.eq_of_toNat_eq
  rw [xOf, be32_toNat _ _ (by decide), mkFrame_toNat]
  have h1 := crc.isLt
  have h2 := z.isLt
  have h3 := y.isLt
  have h4 := x.isLt
  norm_num
  omega

@[simp] theorem yOf_mkFrame : yOf (mkFrame ctl model rsv x y z crc) = y := by
  apply BitVec.eq_of_toNat_eq
  rw [yOf, be32_toNat _ _ (by decide), mkFrame_toNat]
  have h1 := crc.isLt
  have h2 := z.isLt
  have h3 := y.isLt
  norm_num
  omega

@[simp] theorem zOf_mkFrame : zOf (mkFrame ctl model rsv x y z crc) = z := by
  apply BitVec.eq_of_toNat_eq
  rw [zOf, be32_toNat _ _ (by decide), mkFrame_toNat]
  have h1 := crc.isLt
  have h2 := z.isLt
  norm_num
  omega

@[simp] theorem crcField_mkFrame : crcField (mkFrame ctl model rsv x y z crc) = crc := by
  apply BitVec.eq_of_toNat_eq
  rw [crcField, be32_toNat _ _ (by decide), mkFrame_toNat]
  have h1 := crc.isLt
  norm_num
  omega

end Fields

/-- A frame is the frame of its fields (R70, R71): no bit is dropped. -/
theorem mkFrame_fields (F : Frame) :
    mkFrame (ctlOf F) (modelOf F) (rsvOf F) (xOf F) (yOf F) (zOf F) (crcField F) = F := by
  apply BitVec.eq_of_toNat_eq
  have h := F.isLt
  rw [mkFrame_toNat, ctlOf, modelOf, frameByte_toNat, frameByte_toNat, rsvOf_toNat, xOf, yOf, zOf, crcField,
    be32_toNat _ _ (by decide), be32_toNat _ _ (by decide), be32_toNat _ _ (by decide), be32_toNat _ _ (by decide)]
  norm_num
  omega

/-- The first 16 bytes are those of the frame less its last 32 bits. -/
theorem frameByte_congr {F G : Frame} (h : F.toNat / 2 ^ 32 = G.toNat / 2 ^ 32) {k : Nat} (hk : k < 16) :
    frameByte F k = frameByte G k := by
  apply BitVec.eq_of_toNat_eq
  have e : 152 - 8 * k = 32 + (120 - 8 * k) := by omega
  rw [frameByte_toNat, frameByte_toNat, e, Nat.pow_add, ← Nat.div_div_eq_div_mul, h, Nat.div_div_eq_div_mul]

/-- The computed checksum does not depend on the checksum field (R131). -/
theorem crcComputed_congr {F G : Frame} (h : F.toNat / 2 ^ 32 = G.toNat / 2 ^ 32) : crcComputed F = crcComputed G := by
  have e : frameBytes F 16 = frameBytes G 16 :=
    List.map_congr_left fun k hk => frameByte_congr h (List.mem_range.mp hk)
  rw [crcComputed, crcComputed, e]

theorem crcComputed_mkFrame (ctl model : Byte) (rsv : BitVec 16) (x y z : F32) (crc : U32) :
    crcComputed (mkFrame ctl model rsv x y z crc) = crcComputed (mkFrame ctl model rsv x y z 0) := by
  apply crcComputed_congr
  rw [mkFrame_toNat, mkFrame_toNat]
  have h1 := crc.isLt
  simp only [BitVec.ofNat_eq_ofNat, BitVec.toNat_ofNat]
  omega

/-- A sealed frame passes the check (R132). -/
@[simp] theorem crcOk_sealFrame (ctl model : Byte) (rsv : BitVec 16) (x y z : F32) :
    crcOk (sealFrame ctl model rsv x y z) = true := by
  rw [crcOk, sealFrame, crcField_mkFrame, crcComputed_mkFrame]
  exact beq_self_eq_true _

theorem crcOk_iff (F : Frame) : crcOk F = true ↔ crcComputed F = crcField F := by simp [crcOk]

/-- A frame that passes the check is the sealed frame of its fields. -/
theorem sealFrame_fields {F : Frame} (h : crcOk F = true) :
    sealFrame (ctlOf F) (modelOf F) (rsvOf F) (xOf F) (yOf F) (zOf F) = F := by
  have e : crcComputed (mkFrame (ctlOf F) (modelOf F) (rsvOf F) (xOf F) (yOf F) (zOf F) 0) = crcField F := by
    rw [← crcComputed_mkFrame _ _ _ _ _ _ (crcField F), mkFrame_fields]
    exact (crcOk_iff F).mp h
  rw [sealFrame, e, mkFrame_fields]

@[simp] theorem ctlOf_sealFrame (ctl model : Byte) (rsv : BitVec 16) (x y z : F32) :
    ctlOf (sealFrame ctl model rsv x y z) = ctl := ctlOf_mkFrame ..
@[simp] theorem modelOf_sealFrame (ctl model : Byte) (rsv : BitVec 16) (x y z : F32) :
    modelOf (sealFrame ctl model rsv x y z) = model := modelOf_mkFrame ..
@[simp] theorem rsvOf_sealFrame (ctl model : Byte) (rsv : BitVec 16) (x y z : F32) :
    rsvOf (sealFrame ctl model rsv x y z) = rsv := rsvOf_mkFrame ..
@[simp] theorem xOf_sealFrame (ctl model : Byte) (rsv : BitVec 16) (x y z : F32) :
    xOf (sealFrame ctl model rsv x y z) = x := xOf_mkFrame ..
@[simp] theorem yOf_sealFrame (ctl model : Byte) (rsv : BitVec 16) (x y z : F32) :
    yOf (sealFrame ctl model rsv x y z) = y := yOf_mkFrame ..
@[simp] theorem zOf_sealFrame (ctl model : Byte) (rsv : BitVec 16) (x y z : F32) :
    zOf (sealFrame ctl model rsv x y z) = z := zOf_mkFrame ..

end Sys2Proof
end

