-- ==== Sys2Proof/Laws/History.lean ====
section
/-! SUPPORT. Laws/History.lean: the operations of the history FIFO (42_history.md) as list operations. -/

namespace Sys2Proof.Machine

theorem tooOld_iff (now : Nat) (e : Entry) : tooOld now e = true ↔ Config.histMaxAge < now - e.ts := by
  simp only [tooOld, decide_eq_true_eq]

/-- `PopBack()` n times keeps the newest entries. -/
theorem popBackN_eq_take (n : Nat) (h : List Entry) : popBackN n h = h.take (h.length - n) := by
  induction n generalizing h with
  | zero => simp [popBackN]
  | succ n ih =>
    rw [popBackN, ih, popBack, List.dropLast_eq_take, List.take_take]
    congr 1
    simp only [List.length_take]
    omega

/-- The trim keeps the `HIST_KEEP` newest entries (R152). -/
theorem trim_eq_take (h : List Entry) : trim h = h.take Config.histKeep := by
  unfold trim
  by_cases hl : Config.histKeep < h.length
  · rw [if_pos hl, popBackN_eq_take]
    congr 1
    omega
  · rw [if_neg hl, List.take_of_length_le (Nat.le_of_not_lt hl)]

theorem trim_prefix (h : List Entry) : trim h <+: h := by
  rw [trim_eq_take]
  exact List.take_prefix _ h

/-- The eviction removes entries at the old end only (R155). -/
theorem evictLoop_prefix (now fuel : Nat) (h : List Entry) : evictLoop now fuel h <+: h := by
  induction fuel generalizing h with
  | zero => exact List.prefix_rfl
  | succ n ih =>
    unfold evictLoop
    split
    · exact List.prefix_rfl
    · split
      · exact (ih _).trans (List.dropLast_prefix h)
      · exact List.prefix_rfl

theorem windowedView_prefix (now : Nat) (h : List Entry) : windowedView now h <+: h := evictLoop_prefix ..

theorem windowedView_nil (now : Nat) : windowedView now [] = [] := rfl

/-- One turn of the eviction loop, from the oldest entry (R155). -/
theorem windowedView_concat (now : Nat) (h : List Entry) (e : Entry) :
    windowedView now (h ++ [e]) = if tooOld now e then windowedView now h else h ++ [e] := by
  simp [windowedView, evictLoop, back, popBack]

/-- An entry of the commit time is never evicted (R156). -/
theorem windowedView_cons_now (e : Entry) (h : List Entry) :
    ∃ rest, windowedView e.ts (e :: h) = e :: rest ∧ rest <+: h := by
  induction h using List.reverseRecOn with
  | nil =>
    refine ⟨[], ?_, List.prefix_rfl⟩
    have : tooOld e.ts e = false := by simp [tooOld]
    simp [windowedView, evictLoop, back, this]
  | append_singleton h a ih =>
    rw [← List.cons_append, windowedView_concat]
    split
    · obtain ⟨rest, h1, h2⟩ := ih
      exact ⟨rest, h1, h2.trans (List.prefix_append h [a])⟩
    · exact ⟨h ++ [a], rfl, List.prefix_rfl⟩

theorem newestFirst_prefix {h k : List Entry} (hp : h <+: k) (hk : newestFirst k) : newestFirst h :=
  List.Pairwise.sublist hp.sublist hk

/-- The insert keeps the order (R154). -/
theorem newestFirst_insertEntry {e : Entry} {h : List Entry} (hh : newestFirst h) (hp : ∀ x ∈ h, x.ts ≤ e.ts) :
    newestFirst (insertEntry e h) :=
  List.pairwise_cons.mpr
    ⟨fun x hx => hp x ((trim_prefix h).subset hx), newestFirst_prefix (trim_prefix h) hh⟩

end Sys2Proof.Machine
end

