-- ==== Sys2Proof/Laws/State.lean ====
section
/-! SUPPORT. Laws/State.lean: for each update of the state the meanings are written over, what each field is after it.
All hold by computation; with them no proof unfolds a record update. -/

namespace Sys2Proof.Machine

variable (s : State)

@[simp] theorem emit_now (os : List Output) : (s.emit os).now = s.now := rfl
@[simp] theorem emit_hist (os : List Output) : (s.emit os).hist = s.hist := rfl
@[simp] theorem emit_lastUpdate (os : List Output) : (s.emit os).lastUpdate = s.lastUpdate := rfl
@[simp] theorem emit_nextDeadline (os : List Output) : (s.emit os).nextDeadline = s.nextDeadline := rfl
@[simp] theorem emit_run (os : List Output) : (s.emit os).run = s.run := rfl
@[simp] theorem emit_inq (os : List Output) : (s.emit os).inq = s.inq := rfl
@[simp] theorem emit_gate (os : List Output) : (s.emit os).gate = s.gate := rfl
@[simp] theorem emit_out (os : List Output) : (s.emit os).out = s.out ++ os := rfl
@[simp] theorem emit_resetReq (os : List Output) : (s.emit os).resetReq = s.resetReq := rfl
@[simp] theorem emit_gateTakenAt (os : List Output) : (s.emit os).gateTakenAt = s.gateTakenAt := rfl
@[simp] theorem emit_holds (os : List Output) : (s.emit os).holds = s.holds := rfl
@[simp] theorem emit_draws (os : List Output) : (s.emit os).draws = s.draws := rfl
@[simp] theorem emit_env (os : List Output) : (s.emit os).env = s.env := rfl

@[simp] theorem dequeue_now : s.dequeue.now = s.now := rfl
@[simp] theorem dequeue_hist : s.dequeue.hist = s.hist := rfl
@[simp] theorem dequeue_lastUpdate : s.dequeue.lastUpdate = s.lastUpdate := rfl
@[simp] theorem dequeue_nextDeadline : s.dequeue.nextDeadline = s.nextDeadline := rfl
@[simp] theorem dequeue_run : s.dequeue.run = s.run := rfl
@[simp] theorem dequeue_inq : s.dequeue.inq = s.inq.tail := rfl
@[simp] theorem dequeue_gate : s.dequeue.gate = s.gate := rfl
@[simp] theorem dequeue_out : s.dequeue.out = s.out := rfl
@[simp] theorem dequeue_resetReq : s.dequeue.resetReq = s.resetReq := rfl
@[simp] theorem dequeue_gateTakenAt : s.dequeue.gateTakenAt = s.gateTakenAt := rfl
@[simp] theorem dequeue_holds : s.dequeue.holds = s.holds := rfl
@[simp] theorem dequeue_draws : s.dequeue.draws = s.draws := rfl
@[simp] theorem dequeue_env : s.dequeue.env = s.env := rfl

@[simp] theorem report_now (c : Status) : (s.report c).now = s.now := rfl
@[simp] theorem report_hist (c : Status) : (s.report c).hist = s.hist := rfl
@[simp] theorem report_lastUpdate (c : Status) : (s.report c).lastUpdate = s.lastUpdate := rfl
@[simp] theorem report_nextDeadline (c : Status) : (s.report c).nextDeadline = s.nextDeadline := rfl
@[simp] theorem report_run (c : Status) : (s.report c).run = s.run := rfl
@[simp] theorem report_inq (c : Status) : (s.report c).inq = s.inq := rfl
@[simp] theorem report_gate (c : Status) : (s.report c).gate = s.gate := rfl
@[simp] theorem report_out (c : Status) : (s.report c).out = s.out ++ [.status c] := rfl
@[simp] theorem report_resetReq (c : Status) : (s.report c).resetReq = s.resetReq := rfl
@[simp] theorem report_gateTakenAt (c : Status) : (s.report c).gateTakenAt = s.gateTakenAt := rfl
@[simp] theorem report_holds (c : Status) : (s.report c).holds = s.holds := rfl
@[simp] theorem report_draws (c : Status) : (s.report c).draws = s.draws := rfl
@[simp] theorem report_env (c : Status) : (s.report c).env = s.env := rfl

@[simp] theorem driveCommit_now (r : PipelineResult) (d : Nat) : (driveCommit s r d).now = s.now := rfl
@[simp] theorem driveCommit_hist (r : PipelineResult) (d : Nat) : (driveCommit s r d).hist = r.hist := rfl
@[simp] theorem driveCommit_lastUpdate (r : PipelineResult) (d : Nat) : (driveCommit s r d).lastUpdate = s.now := rfl
@[simp] theorem driveCommit_nextDeadline (r : PipelineResult) (d : Nat) : (driveCommit s r d).nextDeadline = s.nextDeadline := rfl
@[simp] theorem driveCommit_run (r : PipelineResult) (d : Nat) : (driveCommit s r d).run = s.run := rfl
@[simp] theorem driveCommit_inq (r : PipelineResult) (d : Nat) : (driveCommit s r d).inq = s.inq.tail := rfl
@[simp] theorem driveCommit_gate (r : PipelineResult) (d : Nat) : (driveCommit s r d).gate = s.gate := rfl
@[simp] theorem driveCommit_out (r : PipelineResult) (d : Nat) : (driveCommit s r d).out = s.out ++ [.status .okDrive] ++ bracket [.setTrans r.v, .setRot r.w] := rfl
@[simp] theorem driveCommit_resetReq (r : PipelineResult) (d : Nat) : (driveCommit s r d).resetReq = s.resetReq := rfl
@[simp] theorem driveCommit_gateTakenAt (r : PipelineResult) (d : Nat) : (driveCommit s r d).gateTakenAt = s.gateTakenAt := rfl
@[simp] theorem driveCommit_holds (r : PipelineResult) (d : Nat) : (driveCommit s r d).holds = s.holds := rfl
@[simp] theorem driveCommit_draws (r : PipelineResult) (d : Nat) : (driveCommit s r d).draws = d := rfl
@[simp] theorem driveCommit_env (r : PipelineResult) (d : Nat) : (driveCommit s r d).env = s.env := rfl

@[simp] theorem stopCommit_now : (stopCommit s).now = s.now := rfl
@[simp] theorem stopCommit_hist : (stopCommit s).hist = s.hist := rfl
@[simp] theorem stopCommit_lastUpdate : (stopCommit s).lastUpdate = s.lastUpdate := rfl
@[simp] theorem stopCommit_nextDeadline : (stopCommit s).nextDeadline = s.nextDeadline := rfl
@[simp] theorem stopCommit_run : (stopCommit s).run = s.run := rfl
@[simp] theorem stopCommit_inq : (stopCommit s).inq = s.inq.tail := rfl
@[simp] theorem stopCommit_gate : (stopCommit s).gate = s.gate := rfl
@[simp] theorem stopCommit_out : (stopCommit s).out = s.out ++ [.status .okStop] ++ bracket [.stop] := rfl
@[simp] theorem stopCommit_resetReq : (stopCommit s).resetReq = s.resetReq := rfl
@[simp] theorem stopCommit_gateTakenAt : (stopCommit s).gateTakenAt = s.gateTakenAt := rfl
@[simp] theorem stopCommit_holds : (stopCommit s).holds = s.holds := rfl
@[simp] theorem stopCommit_draws : (stopCommit s).draws = s.draws := rfl
@[simp] theorem stopCommit_env : (stopCommit s).env = s.env := rfl

@[simp] theorem badcrcCommit_now : (badcrcCommit s).now = s.now := rfl
@[simp] theorem badcrcCommit_hist : (badcrcCommit s).hist = s.hist := rfl
@[simp] theorem badcrcCommit_lastUpdate : (badcrcCommit s).lastUpdate = s.lastUpdate := rfl
@[simp] theorem badcrcCommit_nextDeadline : (badcrcCommit s).nextDeadline = s.nextDeadline := rfl
@[simp] theorem badcrcCommit_run : (badcrcCommit s).run = s.run := rfl
@[simp] theorem badcrcCommit_inq : (badcrcCommit s).inq = s.inq.tail := rfl
@[simp] theorem badcrcCommit_gate : (badcrcCommit s).gate = s.gate := rfl
@[simp] theorem badcrcCommit_out : (badcrcCommit s).out = s.out ++ [.status .errChecksum] := rfl
@[simp] theorem badcrcCommit_resetReq : (badcrcCommit s).resetReq = s.resetReq := rfl
@[simp] theorem badcrcCommit_gateTakenAt : (badcrcCommit s).gateTakenAt = s.gateTakenAt := rfl
@[simp] theorem badcrcCommit_holds : (badcrcCommit s).holds = s.holds := rfl
@[simp] theorem badcrcCommit_draws : (badcrcCommit s).draws = s.draws := rfl
@[simp] theorem badcrcCommit_env : (badcrcCommit s).env = s.env := rfl

@[simp] theorem shutdownCommit_now : (shutdownCommit s).now = s.now := rfl
@[simp] theorem shutdownCommit_hist : (shutdownCommit s).hist = s.hist := rfl
@[simp] theorem shutdownCommit_lastUpdate : (shutdownCommit s).lastUpdate = s.lastUpdate := rfl
@[simp] theorem shutdownCommit_nextDeadline : (shutdownCommit s).nextDeadline = s.nextDeadline := rfl
@[simp] theorem shutdownCommit_run : (shutdownCommit s).run = .halted := rfl
@[simp] theorem shutdownCommit_inq : (shutdownCommit s).inq = [] := rfl
@[simp] theorem shutdownCommit_gate : (shutdownCommit s).gate = s.gate := rfl
@[simp] theorem shutdownCommit_out : (shutdownCommit s).out = s.out ++ (bracket [.stop] ++ bracket [.releaseHw]) := rfl
@[simp] theorem shutdownCommit_resetReq : (shutdownCommit s).resetReq = s.resetReq := rfl
@[simp] theorem shutdownCommit_gateTakenAt : (shutdownCommit s).gateTakenAt = s.gateTakenAt := rfl
@[simp] theorem shutdownCommit_holds : (shutdownCommit s).holds = s.holds := rfl
@[simp] theorem shutdownCommit_draws : (shutdownCommit s).draws = s.draws := rfl
@[simp] theorem shutdownCommit_env : (shutdownCommit s).env = s.env := rfl

@[simp] theorem resetCommit_now : (resetCommit s).now = 0 := rfl
@[simp] theorem resetCommit_hist : (resetCommit s).hist = [] := rfl
@[simp] theorem resetCommit_lastUpdate : (resetCommit s).lastUpdate = 0 := rfl
@[simp] theorem resetCommit_nextDeadline : (resetCommit s).nextDeadline = Config.wdtPeriod := rfl
@[simp] theorem resetCommit_run : (resetCommit s).run = .running := rfl
@[simp] theorem resetCommit_inq : (resetCommit s).inq = [] := rfl
@[simp] theorem resetCommit_gate : (resetCommit s).gate = s.gate := rfl
@[simp] theorem resetCommit_out : (resetCommit s).out = s.out ++ bracket [.enable] := rfl
@[simp] theorem resetCommit_resetReq : (resetCommit s).resetReq = false := rfl
@[simp] theorem resetCommit_gateTakenAt : (resetCommit s).gateTakenAt = 0 := rfl
@[simp] theorem resetCommit_holds : (resetCommit s).holds = [] := rfl
@[simp] theorem resetCommit_draws : (resetCommit s).draws = s.draws := rfl
@[simp] theorem resetCommit_env : (resetCommit s).env = s.env := rfl

@[simp] theorem endHold_now : s.endHold.now = s.now := rfl
@[simp] theorem endHold_hist : s.endHold.hist = s.hist := rfl
@[simp] theorem endHold_lastUpdate : s.endHold.lastUpdate = s.lastUpdate := rfl
@[simp] theorem endHold_nextDeadline : s.endHold.nextDeadline = s.nextDeadline := rfl
@[simp] theorem endHold_run : s.endHold.run = s.run := rfl
@[simp] theorem endHold_inq : s.endHold.inq = s.inq := rfl
@[simp] theorem endHold_gate : s.endHold.gate = .free := rfl
@[simp] theorem endHold_out : s.endHold.out = s.out := rfl
@[simp] theorem endHold_resetReq : s.endHold.resetReq = s.resetReq := rfl
@[simp] theorem endHold_gateTakenAt : s.endHold.gateTakenAt = s.gateTakenAt := rfl
@[simp] theorem endHold_holds : s.endHold.holds = ⟨s.gateTakenAt, s.now, gateWaited s⟩ :: s.holds := rfl
@[simp] theorem endHold_draws : s.endHold.draws = s.draws := rfl
@[simp] theorem endHold_env : s.endHold.env = s.env := rfl

end Sys2Proof.Machine
end

