-- ==== Sys2Proof/Laws/Ops.lean ====
section
/-! SUPPORT. Laws/Ops.lean: what each shared operation can do, said once; what a meaning can do (`Committed`), and what a
step can do (`Stepped`). Proofs about every instruction or every step cite these and do not unfold the operations. -/

namespace Sys2Proof.Machine

variable {s t : State} {k : Result} {i : Instr}

theorem gate_cases (s : State) : s.gate = .free ∨ s.gate = .heldByActuator := by
  cases s.gate
  · exact .inl rfl
  · exact .inr rfl

theorem run_cases (s : State) : s.run = .running ∨ s.run = .halted := by
  cases s.run
  · exact .inl rfl
  · exact .inr rfl

/-! ### Guards -/

theorem whenRunning_of (hr : s.run = .running) (hn : s.now < Config.timeLimit) : whenRunning s k = k := by
  simp [whenRunning, hr, Nat.not_le.mpr hn]

theorem whenRunning_halted (hr : s.run = .halted) : whenRunning s k = .refused .halted := by simp [whenRunning, hr]

theorem whenRunning_next (h : whenRunning s k = .next t) :
    s.run = .running ∧ s.now < Config.timeLimit ∧ k = .next t := by
  unfold whenRunning at h
  split at h
  · cases h
  · rename_i hr
    split at h
    · cases h
    · rename_i hn
      exact ⟨(run_cases s).resolve_right hr, Nat.lt_of_not_le hn, h⟩

theorem whenGateFree_of (hg : s.gate = .free) : whenGateFree s k = k := by simp [whenGateFree, hg]

theorem whenGateFree_held (hg : s.gate = .heldByActuator) : whenGateFree s k = .next s := by
  simp [whenGateFree, hg]

theorem whenGateFree_next (h : whenGateFree s k = .next t) :
    (s.gate = .free ∧ k = .next t) ∨ (s.gate = .heldByActuator ∧ t = s) := by
  rcases gate_cases s with hg | hg
  · exact .inl ⟨hg, by rwa [whenGateFree_of hg] at h⟩
  · rw [whenGateFree_held hg] at h
    cases h
    exact .inr ⟨hg, rfl⟩

/-! ### The operations, when they commit -/

/-- What the pipeline of a drive frame gives in state `s`: its result and the counter of draws after it. -/
def pipelineAt (alg : Algorithm) (filt : Filter) (x y z : F32) (s : State) : PipelineResult × Nat :=
  runDraw (drivePipeline alg filt s.now s.hist x y z) s.draws

theorem driveOp_of (alg : Algorithm) (filt : Filter) (x y z : F32) (hr : s.run = .running)
    (hn : s.now < Config.timeLimit) (hg : s.gate = .free) :
    driveOp alg filt x y z s =
      .next (driveCommit s (pipelineAt alg filt x y z s).1 (pipelineAt alg filt x y z s).2) := by
  rw [driveOp, whenRunning_of hr hn, whenGateFree_of hg]
  rfl

theorem stopOp_of (hr : s.run = .running) (hn : s.now < Config.timeLimit) (hg : s.gate = .free) :
    stopOp s = .next (stopCommit s) := by
  rw [stopOp, whenRunning_of hr hn, whenGateFree_of hg]

theorem badcrcOp_of (hr : s.run = .running) (hn : s.now < Config.timeLimit) :
    badcrcOp s = .next (badcrcCommit s) := by
  rw [badcrcOp, whenRunning_of hr hn]

theorem shutdownOp_of (hr : s.run = .running) (hn : s.now < Config.timeLimit) (hg : s.gate = .free) :
    shutdownOp s = .next (shutdownCommit s) := by
  rw [shutdownOp, whenRunning_of hr hn, whenGateFree_of hg]

theorem resetOp_of (hg : s.gate = .free) : resetOp s = .next (resetCommit s) := by
  rw [resetOp, whenGateFree_of hg]

/-! ### What a meaning can do -/

/-- The next states the meaning of `i` can answer. -/
inductive Committed (i : Instr) (s : State) : State → Prop where
  /-- A gated operation waits while the actuation agent holds the gate. -/
  | held (hg : s.gate = .heldByActuator) : Committed i s s
  | drive (alg : Algorithm) (filt : Filter) (x y z : F32) (hr : s.run = .running) (hn : s.now < Config.timeLimit)
      (hg : s.gate = .free) :
      Committed i s (driveCommit s (pipelineAt alg filt x y z s).1 (pipelineAt alg filt x y z s).2)
  | stop (hr : s.run = .running) (hn : s.now < Config.timeLimit) (hg : s.gate = .free) : Committed i s (stopCommit s)
  | badcrc (hr : s.run = .running) (hn : s.now < Config.timeLimit) : Committed i s (badcrcCommit s)
  | staleTick (hr : s.run = .running) (hn : s.now < Config.timeLimit) (hg : s.gate = .free)
      (hd : nextCheck s < Config.timeLimit) (hs : stale s.now s.lastUpdate = true) :
      Committed i s ({ s with nextDeadline := nextCheck s }.emit (bracket [.stop]))
  | freshTick (hr : s.run = .running) (hn : s.now < Config.timeLimit) (hd : nextCheck s < Config.timeLimit)
      (hs : stale s.now s.lastUpdate = false) : Committed i s { s with nextDeadline := nextCheck s }
  | shutdown (hr : s.run = .running) (hn : s.now < Config.timeLimit) (hg : s.gate = .free) :
      Committed i s (shutdownCommit s)
  /-- Only RESET does this. -/
  | reset (hi : i = .reset) (hg : s.gate = .free) : Committed i s (resetCommit s)

theorem driveOp_next {alg : Algorithm} {filt : Filter} {x y z : F32} (h : driveOp alg filt x y z s = .next t) :
    Committed i s t := by
  obtain ⟨hr, hn, h⟩ := whenRunning_next h
  obtain ⟨hg, h⟩ | ⟨hg, rfl⟩ := whenGateFree_next h
  · cases h
    exact .drive alg filt x y z hr hn hg
  · exact .held hg

theorem stopOp_next (h : stopOp s = .next t) : Committed i s t := by
  obtain ⟨hr, hn, h⟩ := whenRunning_next h
  obtain ⟨hg, h⟩ | ⟨hg, rfl⟩ := whenGateFree_next h
  · cases h
    exact .stop hr hn hg
  · exact .held hg

theorem badcrcOp_next (h : badcrcOp s = .next t) : Committed i s t := by
  obtain ⟨hr, hn, h⟩ := whenRunning_next h
  cases h
  exact .badcrc hr hn

theorem tickOp_next (h : tickOp s = .next t) : Committed i s t := by
  obtain ⟨hr, hn, h⟩ := whenRunning_next h
  split at h
  · cases h
  · rename_i hd
    have hd := Nat.lt_of_not_le hd
    split at h
    · rename_i hs
      obtain ⟨hg, h⟩ | ⟨hg, rfl⟩ := whenGateFree_next h
      · cases h
        exact .staleTick hr hn hg hd hs
      · exact .held hg
    · rename_i hs
      cases h
      exact .freshTick hr hn hd (Bool.eq_false_iff.mpr hs)

theorem shutdownOp_next (h : shutdownOp s = .next t) : Committed i s t := by
  obtain ⟨hr, hn, h⟩ := whenRunning_next h
  obtain ⟨hg, h⟩ | ⟨hg, rfl⟩ := whenGateFree_next h
  · cases h
    exact .shutdown hr hn hg
  · exact .held hg

theorem resetOp_next (h : resetOp s = .next t) : Committed .reset s t := by
  obtain ⟨hg, h⟩ | ⟨hg, rfl⟩ := whenGateFree_next h
  · cases h
    exact .reset rfl hg
  · exact .held hg

theorem execFrame_next {F : Frame} (h : execFrame F s = .next t) : Committed i s t := by
  unfold execFrame at h
  split at h
  · exact badcrcOp_next h
  · exact stopOp_next h
  · exact driveOp_next h

/-- Every next state of every instruction is one of `Committed`. -/
theorem exec_next (h : exec i s = .next t) : Committed i s t := by
  cases i with
  | frame F => exact execFrame_next h
  | stop => exact stopOp_next h
  | badcrc => exact badcrcOp_next h
  | tick => exact tickOp_next h
  | shutdown => exact shutdownOp_next h
  | reset => exact resetOp_next h
  | driveM0 | driveM1 | driveM2 | driveM3 | driveM4 | driveM5 | driveM6 | driveM7 | driveM8 | driveM12 | driveM13
  | driveM14 | driveDflt09 | driveDflt0A | driveDflt0B | driveDflt0F | driveDflt10 | driveDflt20 | driveDflt40
  | driveDflt80 => exact driveOp_next h

/-! ### While the gate is held -/

theorem whenRunning_waits (hg : s.gate = .heldByActuator) (h : whenRunning s (whenGateFree s k) = .next t) : t = s := by
  obtain ⟨-, -, h⟩ := whenRunning_next h
  rw [whenGateFree_held hg] at h
  cases h
  rfl

theorem tickOp_waits (hg : s.gate = .heldByActuator) (hs : stale s.now s.lastUpdate = true) (h : tickOp s = .next t) :
    t = s := by
  obtain ⟨-, -, h⟩ := whenRunning_next h
  split at h
  · cases h
  · rw [whenGateFree_held hg] at h
    cases h
    rfl

/-- R241: an operation that needs the gate changes nothing while the actuation agent holds it. -/
theorem exec_waits (hg : s.gate = .heldByActuator) (hw : needsGate i s = true) (h : exec i s = .next t) : t = s := by
  cases i with
  | frame F =>
    have hc : crcOk F = true := hw
    simp only [exec, execFrame, classify, hc, Bool.not_true, Bool.false_eq_true, if_false] at h
    cases hd : driveOf F <;> rw [hd] at h <;> exact whenRunning_waits hg h
  | badcrc => cases hw
  | tick => exact tickOp_waits hg hw h
  | stop | shutdown => exact whenRunning_waits hg h
  | reset =>
    rw [exec, execReset, resetOp, whenGateFree_held hg] at h
    cases h
    rfl
  | driveM0 | driveM1 | driveM2 | driveM3 | driveM4 | driveM5 | driveM6 | driveM7 | driveM8 | driveM12 | driveM13
  | driveM14 | driveDflt09 | driveDflt0A | driveDflt0B | driveDflt0F | driveDflt10 | driveDflt20 | driveDflt40
  | driveDflt80 => exact whenRunning_waits hg h

/-! ### What is due -/

/-- A RESET is due only when one waits (R247). -/
theorem nextDue_reset {d : Due} (h : nextDue s = some d) (hi : d.instr = .reset) : s.resetReq = true := by
  cases hq : s.resetReq with
  | true => rfl
  | false =>
    exfalso
    have hp : ∀ p : Pending, p.due.instr ≠ .reset := by
      intro p
      rcases p with ⟨_ | _, _, _⟩ <;> simp [Pending.due, InputEvent.word, decodeEvent]
    simp only [nextDue, hq, Bool.false_eq_true, if_false] at h
    split at h
    · cases h
    · split at h
      · split at h
        · cases h
          simp [tickEvent, decodeEvent] at hi
        · cases h
      · split at h
        · cases h
          simp [tickEvent, decodeEvent] at hi
        · cases h
          exact hp _ hi

/-! ### What a step can do -/

/-- The state a step acts on: its head move is spent. -/
def State.afterMove (s : State) : State := { s with env := s.env.tail }

/-- The next states a step can answer, from the state `s` whose head move is spent. -/
inductive Stepped (s : State) : State → Prop where
  /-- Nothing was due. -/
  | same : Stepped s s
  /-- The operation that was due committed, or is held. -/
  | commit (d : Due) (hd : nextDue s = some d) (hl : withinLatency s d = true) (t : State)
      (hx : exec d.instr s = .next t) : Stepped s t
  /-- A frame or a SHUTDOWN request arrived. -/
  | arrive (e : InputEvent) (afterTick : Bool) (hr : s.run = .running) :
      Stepped s { s with inq := s.inq ++ [⟨e, s.now, afterTick⟩] }
  /-- A RESET request arrived. -/
  | reset : Stepped s { s with resetReq := true }
  /-- Time advanced. -/
  | advance (u : Nat) (hu : s.now ≤ u) (hl : u < Config.timeLimit) : Stepped s { s with now := u }
  /-- The actuation agent took the gate. -/
  | gateTake (hg : s.gate = .free) : Stepped s { s with gate := .heldByActuator, gateTakenAt := s.now }
  /-- The actuation agent gave the gate back. -/
  | gateGive (hg : s.gate = .heldByActuator) : Stepped s s.endHold

theorem commitNext_next (h : commitNext s = .next t) : Stepped s t := by
  unfold commitNext at h
  split at h
  · cases h
    exact .same
  · rename_i d hd
    split at h
    · rename_i hl
      exact .commit d hd hl t h
    · cases h

theorem advanceTo_next {u : Nat} (h : advanceTo s u = .next t) : Stepped s t := by
  unfold advanceTo at h
  split at h
  · cases h
  · rename_i h1
    split at h
    · cases h
    · rename_i h2
      cases h
      exact .advance u (Nat.le_of_not_lt h1) (Nat.lt_of_not_le h2)

theorem arrive_next {e : InputEvent} {b : Bool} (h : arrive s e b = .next t) : Stepped s t := by
  unfold arrive at h
  split at h
  · cases h
  · rename_i hr
    cases h
    exact .arrive e b ((run_cases s).resolve_right hr)

theorem envMove_next {m : EnvMove} (h : envMove m s = .next t) : Stepped s t := by
  cases m with
  | frame bytes b =>
    simp only [envMove, arriveFrame] at h
    split at h
    · exact arrive_next h
    · cases h
  | shutdown b => exact arrive_next h
  | reset =>
    cases h
    exact .reset
  | advance u => exact advanceTo_next h
  | gateTake =>
    simp only [envMove, Machine.gateTake] at h
    split at h
    · rename_i hg
      cases h
      exact .gateTake hg
    · cases h
  | gateGive =>
    simp only [envMove, Machine.gateGive] at h
    split at h
    · rename_i hg
      cases h
      exact .gateGive hg
    · cases h
  | commit => exact commitNext_next h

theorem runFree_next (h : runFree s = .next t) : Stepped s t := by
  unfold runFree at h
  split at h
  · exact commitNext_next h
  · split at h
    · exact advanceTo_next h
    · cases h
      exact .same

/-- Every next state of a step is one of `Stepped`, from the state whose head move is spent. -/
theorem step_next (h : step s = .next t) : Stepped s.afterMove t := by
  unfold step at h
  split at h
  · rename_i he
    have e : s.afterMove = s := by rw [State.afterMove, he]; cases s; simp_all
    rw [e]
    exact runFree_next h
  · rename_i m rest he
    have e : s.afterMove = { s with env := rest } := by rw [State.afterMove, he]; rfl
    rw [e]
    exact envMove_next h

@[simp] theorem runSteps_zero (s : State) : runSteps 0 s = .next s := rfl

theorem runSteps_succ (k : Nat) (h : step s = .next t) : runSteps (k + 1) s = runSteps k t := by
  simp only [runSteps, h]

end Sys2Proof.Machine
end

