-- ==== Sys2Proof/Laws/PerInstr.lean ====
section
/-! SUPPORT. Laws/PerInstr.lean: what every row's encoding holds (30_encoding.md R70, R75, R78), one lemma for each
constructor of Instr. -/

namespace Sys2Proof.Laws

/-- The event word of a frame row or a FRAME is of kind 0b00; a drive row's frame passes the check and holds `ctl` = 0xFF,
the row's model byte and its fields. -/
def EncodeHeader.Statement (i : Instr) : Prop :=
  (i.isFrameRow = true → (encode i).kind = 0#2) ∧
  (∀ m rsv x y z, i.driveFields = some (m, rsv, x, y, z) →
    crcOk (encode i).payload = true ∧ ctlOf (encode i).payload = 0xFF#8 ∧ modelOf (encode i).payload = m ∧
    rsvOf (encode i).payload = rsv ∧ xOf (encode i).payload = x ∧ yOf (encode i).payload = y ∧
    zOf (encode i).payload = z)

/-- A row whose kind is 0 and whose payload is the sealed frame of its fields. -/
theorem encodeHeader_of_seal (i : Instr) (hk : i.kind = 0#2)
    (hp : ∀ m rsv x y z, i.driveFields = some (m, rsv, x, y, z) → encodeFrame i = sealFrame 0xFF#8 m rsv x y z) :
    EncodeHeader.Statement i := by
  refine ⟨fun _ => hk, fun m rsv x y z h => ?_⟩
  simp only [encode, hp m rsv x y z h, crcOk_sealFrame, ctlOf_sealFrame, modelOf_sealFrame, rsvOf_sealFrame,
    xOf_sealFrame, yOf_sealFrame, zOf_sealFrame, and_self]

/-- A row that is no drive row. -/
theorem encodeHeader_of_none (i : Instr) (hk : i.isFrameRow = true → i.kind = 0#2) (hd : i.driveFields = none) :
    EncodeHeader.Statement i :=
  ⟨hk, fun _ _ _ _ _ h => by rw [hd] at h; cases h⟩

/-- A drive row is encoded as the sealed frame of its fields. -/
theorem encodeFrame_drive {i : Instr} {m : Byte} {rsv : BitVec 16} {x y z : F32}
    (h : i.driveFields = some (m, rsv, x, y, z)) : encodeFrame i = sealFrame Config.driveSentinel m rsv x y z := by
  simp only [encodeFrame, h]

theorem EncodeHeader.frame (F : Frame) : EncodeHeader.Statement (.frame F) :=
  encodeHeader_of_none _ (fun _ => rfl) rfl

theorem EncodeHeader.driveM0 (rsv : BitVec 16) (x y z : F32) : EncodeHeader.Statement (.driveM0 rsv x y z) :=
  encodeHeader_of_seal _ rfl fun _ _ _ _ _ h => encodeFrame_drive h

theorem EncodeHeader.driveM1 (rsv : BitVec 16) (x y z : F32) : EncodeHeader.Statement (.driveM1 rsv x y z) :=
  encodeHeader_of_seal _ rfl fun _ _ _ _ _ h => encodeFrame_drive h

theorem EncodeHeader.driveM2 (rsv : BitVec 16) (x y z : F32) : EncodeHeader.Statement (.driveM2 rsv x y z) :=
  encodeHeader_of_seal _ rfl fun _ _ _ _ _ h => encodeFrame_drive h

theorem EncodeHeader.driveM3 (rsv : BitVec 16) (x y z : F32) : EncodeHeader.Statement (.driveM3 rsv x y z) :=
  encodeHeader_of_seal _ rfl fun _ _ _ _ _ h => encodeFrame_drive h

theorem EncodeHeader.driveM4 (rsv : BitVec 16) (x y z : F32) : EncodeHeader.Statement (.driveM4 rsv x y z) :=
  encodeHeader_of_seal _ rfl fun _ _ _ _ _ h => encodeFrame_drive h

theorem EncodeHeader.driveM5 (rsv : BitVec 16) (x y z : F32) : EncodeHeader.Statement (.driveM5 rsv x y z) :=
  encodeHeader_of_seal _ rfl fun _ _ _ _ _ h => encodeFrame_drive h

theorem EncodeHeader.driveM6 (rsv : BitVec 16) (x y z : F32) : EncodeHeader.Statement (.driveM6 rsv x y z) :=
  encodeHeader_of_seal _ rfl fun _ _ _ _ _ h => encodeFrame_drive h

theorem EncodeHeader.driveM7 (rsv : BitVec 16) (x y z : F32) : EncodeHeader.Statement (.driveM7 rsv x y z) :=
  encodeHeader_of_seal _ rfl fun _ _ _ _ _ h => encodeFrame_drive h

theorem EncodeHeader.driveM8 (rsv : BitVec 16) (x y z : F32) : EncodeHeader.Statement (.driveM8 rsv x y z) :=
  encodeHeader_of_seal _ rfl fun _ _ _ _ _ h => encodeFrame_drive h

theorem EncodeHeader.driveDflt09 (rsv : BitVec 16) (x y z : F32) : EncodeHeader.Statement (.driveDflt09 rsv x y z) :=
  encodeHeader_of_seal _ rfl fun _ _ _ _ _ h => encodeFrame_drive h

theorem EncodeHeader.driveDflt0A (rsv : BitVec 16) (x y z : F32) : EncodeHeader.Statement (.driveDflt0A rsv x y z) :=
  encodeHeader_of_seal _ rfl fun _ _ _ _ _ h => encodeFrame_drive h

theorem EncodeHeader.driveDflt0B (rsv : BitVec 16) (x y z : F32) : EncodeHeader.Statement (.driveDflt0B rsv x y z) :=
  encodeHeader_of_seal _ rfl fun _ _ _ _ _ h => encodeFrame_drive h

theorem EncodeHeader.driveM12 (rsv : BitVec 16) (x y z : F32) : EncodeHeader.Statement (.driveM12 rsv x y z) :=
  encodeHeader_of_seal _ rfl fun _ _ _ _ _ h => encodeFrame_drive h

theorem EncodeHeader.driveM13 (rsv : BitVec 16) (x y z : F32) : EncodeHeader.Statement (.driveM13 rsv x y z) :=
  encodeHeader_of_seal _ rfl fun _ _ _ _ _ h => encodeFrame_drive h

theorem EncodeHeader.driveM14 (rsv : BitVec 16) (x y z : F32) : EncodeHeader.Statement (.driveM14 rsv x y z) :=
  encodeHeader_of_seal _ rfl fun _ _ _ _ _ h => encodeFrame_drive h

theorem EncodeHeader.driveDflt0F (rsv : BitVec 16) (x y z : F32) : EncodeHeader.Statement (.driveDflt0F rsv x y z) :=
  encodeHeader_of_seal _ rfl fun _ _ _ _ _ h => encodeFrame_drive h

theorem EncodeHeader.driveDflt10 (lo : BitVec 4) (rsv : BitVec 16) (x y z : F32) : EncodeHeader.Statement (.driveDflt10 lo rsv x y z) :=
  encodeHeader_of_seal _ rfl fun _ _ _ _ _ h => encodeFrame_drive h

theorem EncodeHeader.driveDflt20 (lo : BitVec 5) (rsv : BitVec 16) (x y z : F32) : EncodeHeader.Statement (.driveDflt20 lo rsv x y z) :=
  encodeHeader_of_seal _ rfl fun _ _ _ _ _ h => encodeFrame_drive h

theorem EncodeHeader.driveDflt40 (lo : BitVec 6) (rsv : BitVec 16) (x y z : F32) : EncodeHeader.Statement (.driveDflt40 lo rsv x y z) :=
  encodeHeader_of_seal _ rfl fun _ _ _ _ _ h => encodeFrame_drive h

theorem EncodeHeader.driveDflt80 (lo : BitVec 7) (rsv : BitVec 16) (x y z : F32) : EncodeHeader.Statement (.driveDflt80 lo rsv x y z) :=
  encodeHeader_of_seal _ rfl fun _ _ _ _ _ h => encodeFrame_drive h

theorem EncodeHeader.stop (ctl model : Byte) (rsv : BitVec 16) (x y z : F32) : EncodeHeader.Statement (.stop ctl model rsv x y z) :=
  encodeHeader_of_none _ (fun _ => rfl) rfl

theorem EncodeHeader.badcrc (ctl model : Byte) (rsv : BitVec 16) (x y z : F32) (crc : U32) : EncodeHeader.Statement (.badcrc ctl model rsv x y z crc) :=
  encodeHeader_of_none _ (fun _ => rfl) rfl

theorem EncodeHeader.tick : EncodeHeader.Statement .tick :=
  encodeHeader_of_none _ (fun h => by cases h) rfl

theorem EncodeHeader.shutdown : EncodeHeader.Statement .shutdown :=
  encodeHeader_of_none _ (fun h => by cases h) rfl

theorem EncodeHeader.reset : EncodeHeader.Statement .reset :=
  encodeHeader_of_none _ (fun h => by cases h) rfl

end Sys2Proof.Laws
end

