-- ==== Sys2Proof/Laws/Schedule.lean ====
section
/-! SUPPORT. Laws/Schedule.lean: how long the gate delays an operation (Machine/Schedule.lean), said once for each case. -/

namespace Sys2Proof.Machine

variable {s : State} {d : Due}

/-- A hold counts by at most its length, and only after the arrival. -/
theorem hold_after_le (h : Hold) (arrival : Nat) : h.after arrival ≤ h.given - arrival ∧ h.after arrival ≤ h.given - h.taken := by
  unfold Hold.after
  omega

/-- What an operation that needs no gate counts: ended holds alone. -/
theorem heldFor_of_not_gated (hn : needsGate d.instr s = false) :
    heldFor s d = ((s.holds.filter Hold.blocking).map (·.after d.arrival)).sum := by
  simp [heldFor, hn]

/-- What an operation that needs the gate counts. -/
theorem heldFor_of_gated (hn : needsGate d.instr s = true) :
    heldFor s d = (s.holds.map (·.after d.arrival)).sum +
      (if s.gate = .heldByActuator then s.now - max s.gateTakenAt d.arrival else 0) := by
  simp [heldFor, hn]

/-- An operation that is not later than its arrival and the time the gate held it up is in time, whatever the bound. -/
theorem withinLatency_of_le (h : s.now ≤ d.arrival + heldFor s d) : withinLatency s d = true := by
  simp [withinLatency, h]

end Sys2Proof.Machine
end

