-- ==== Sys2Proof/Tests/Slice0.lean ====
section
/-! SUPPORT. Tests/Slice0.lean: the model's own tests. Expected values are those of spec/95_test_vectors.md (named by
their ids) or are written out from the encoding tables of 30_encoding.md; then, for each obligation with hypotheses, a
concrete witness that meets them. -/

namespace Sys2Proof.Tests

set_option Elab.async false

open Sys2Proof.Machine

/-! ### WellFormed refuses ill-formed terms -/

theorem test_wf_stop_with_drive_sentinel : (Instr.stop 0xFF 0 0 0 0 0).wellFormed = false := by decide
theorem test_wf_badcrc_with_right_crc :
    (Instr.badcrc 0xFF 0 0 0x3F800000 0 0 0xF096EE68).wellFormed = false := by decide +kernel
theorem test_wf_stop : (Instr.stop 0xFE 0 0 0 0 0).wellFormed = true := by decide
theorem test_wf_badcrc : (Instr.badcrc 0xFF 0 0 0x3E800000 0 0 0xF096EE68).wellFormed = true := by decide +kernel

/-! ### Every constructor from a written-out word

The drive frames are V-OP-1's for the raw sample (0, 0, 1): `FF mm 00 00`, x, y, z, CRC. -/

theorem test_decode_driveM0 :
    decodeFrame 0xFF00000000000000000000003F800000A8B781F5 = .driveM0 0 0 0 0x3F800000 := by decide +kernel
theorem test_decode_driveM1 :
    decodeFrame 0xFF01000000000000000000003F800000114C5A1D = .driveM1 0 0 0 0x3F800000 := by decide +kernel
theorem test_decode_driveM2 :
    decodeFrame 0xFF02000000000000000000003F80000000313064 = .driveM2 0 0 0 0x3F800000 := by decide +kernel
theorem test_decode_driveM3 :
    decodeFrame 0xFF03000000000000000000003F800000B9CAEB8C = .driveM3 0 0 0 0x3F800000 := by decide +kernel
theorem test_decode_driveM4 :
    decodeFrame 0xFF04000000000000000000003F80000022CBE496 = .driveM4 0 0 0 0x3F800000 := by decide +kernel
theorem test_decode_driveM5 :
    decodeFrame 0xFF05000000000000000000003F8000009B303F7E = .driveM5 0 0 0 0x3F800000 := by decide +kernel
theorem test_decode_driveM6 :
    decodeFrame 0xFF06000000000000000000003F8000008A4D5507 = .driveM6 0 0 0 0x3F800000 := by decide +kernel
theorem test_decode_driveM7 :
    decodeFrame 0xFF07000000000000000000003F80000033B68EEF = .driveM7 0 0 0 0x3F800000 := by decide +kernel
theorem test_decode_driveM8 :
    decodeFrame 0xFF08000000000000000000003F800000673E4D72 = .driveM8 0 0 0 0x3F800000 := by decide +kernel
theorem test_decode_driveDflt09 :
    decodeFrame 0xFF09000000000000000000003F800000DEC5969A = .driveDflt09 0 0 0 0x3F800000 := by decide +kernel
theorem test_decode_driveDflt0A :
    decodeFrame 0xFF0A000000000000000000003F800000CFB8FCE3 = .driveDflt0A 0 0 0 0x3F800000 := by decide +kernel
theorem test_decode_driveDflt0B :
    decodeFrame 0xFF0B000000000000000000003F8000007643270B = .driveDflt0B 0 0 0 0x3F800000 := by decide +kernel
theorem test_decode_driveM12 :
    decodeFrame 0xFF0C000000000000000000003F800000ED422811 = .driveM12 0 0 0 0x3F800000 := by decide +kernel
theorem test_decode_driveM13 :
    decodeFrame 0xFF0D000000000000000000003F80000054B9F3F9 = .driveM13 0 0 0 0x3F800000 := by decide +kernel
theorem test_decode_driveM14 :
    decodeFrame 0xFF0E000000000000000000003F80000045C49980 = .driveM14 0 0 0 0x3F800000 := by decide +kernel
theorem test_decode_driveDflt0F :
    decodeFrame 0xFF0F000000000000000000003F800000FC3F4268 = .driveDflt0F 0 0 0 0x3F800000 := by decide +kernel
theorem test_decode_driveDflt10 :
    decodeFrame 0xFF10000000000000000000003F800000ECD51EBA = .driveDflt10 0 0 0 0 0x3F800000 := by decide +kernel
theorem test_decode_driveDflt20 :
    decodeFrame 0xFF20000000000000000000003F8000002072BF6B = .driveDflt20 0 0 0 0 0x3F800000 := by decide +kernel
theorem test_decode_driveDflt40 :
    decodeFrame 0xFF40000000000000000000003F800000624CFA88 = .driveDflt40 0 0 0 0 0x3F800000 := by decide +kernel
theorem test_decode_driveDflt80 :
    decodeFrame 0xFF80000000000000000000003F800000E630714E = .driveDflt80 0 0 0 0 0x3F800000 := by decide +kernel
/-- V-DEC-4: the last code of the last row. -/
theorem test_decode_code_255 :
    decodeFrame 0xFFFF000000000000000000003F800000B4E4687F = .driveDflt80 0x7F 0 0 0 0x3F800000 := by decide +kernel
/-- V-DEC-2. -/
theorem test_decode_stop :
    decodeFrame 0x000500003F80000040000000404000000C737E24
      = .stop 0 5 0 0x3F800000 0x40000000 0x40400000 := by decide +kernel
/-- V-OP-3. -/
theorem test_decode_badcrc :
    decodeFrame 0xFF0000003E8000000000000000000000F096EE68
      = .badcrc 0xFF 0 0 0x3E800000 0 0 0xF096EE68 := by decide +kernel
theorem test_decode_frame : decodeEvent ⟨0b00, 5⟩ = .frame 5 := by decide
theorem test_decode_tick : decodeEvent ⟨0b01, 0⟩ = .tick := by decide
theorem test_decode_shutdown : decodeEvent ⟨0b10, 0⟩ = .shutdown := by decide
theorem test_decode_reset : decodeEvent ⟨0b11, 0⟩ = .reset := by decide
/-- V-DEC-5: a NaN pattern is carried unchanged. -/
theorem test_decode_nan_pattern :
    (decodeSample 0xFF0000007FC00000000000000000000016BD4077).toOption = some ⟨true, 0, 0x7FC00000, 0, 0⟩ := by
  decide +kernel
/-- R54, R79: 19 bytes are no frame. -/
theorem test_decode_partial_frame : decodeBytes (List.replicate 19 0) = .error (.partialFrame 19) := by rfl
/-- W8's bytes in wire order. -/
theorem test_decode_bytes :
    (decodeBytes [0xFF, 0, 0, 0, 0x3F, 0x80, 0, 0, 0, 0, 0, 0, 0, 0, 0, 0, 0xF0, 0x96, 0xEE, 0x68]).toOption
      = some (.driveM0 0 0x3F800000 0 0) := by decide +kernel
/-- R80: CORRUPT 4, 0x3E of W8's frame is V-CRC-3's. -/
theorem test_corrupt :
    corrupt (pseudoDrive 0 0x3F800000 0 0) 4 0x3E = 0xFF0000003E8000000000000000000000F096EE68 := by decide +kernel

/-! ### Table words and the step that runs them -/

theorem test_table_drive : decodeTableWord 32 0xFF0C0000 = some (.driveM12 0 0 0 0) := by decide +kernel
theorem test_table_stop : decodeTableWord 32 0 = some (.stop 0 0 0 0 0 0) := by decide +kernel
theorem test_table_event : decodeTableWord 8 3 = some .reset := by decide
theorem test_table_badcrc : decodeTableWord 160 0xFF000000 = some (.badcrc 0xFF 0 0 0 0 0 0) := by decide +kernel

/-- The next state of an outcome. -/
def nextOf (r : Machine.Result) : Option State :=
  match r with
  | .next s => some s
  | _ => none

/-- What an outcome sends, after a start with an empty trace. -/
def sent (r : Machine.Result) : Option (List Output) := (nextOf r).map State.out

/-- The refusal of an outcome. -/
def refusalOf (r : Machine.Result) : Option Refusal :=
  match r with
  | .refused e => some e
  | _ => none

/-- The state after power-on at a given time, with an empty trace. -/
def at_ (now : Nat) : State := { State.reset with now := now, out := [] }

theorem test_fetch_stop : sent (step ((at_ 0).withFetchWord 32 0)) =
    some [.status .okStop, .act .gateAcq, .act .stop, .act .gateRel] := by decide +kernel
theorem test_fetch_tick : (nextOf (step (State.reset.withFetchWord 8 1))).map State.nextDeadline = some 100000 := by
  decide +kernel
theorem test_fetch_shutdown : (nextOf (step (State.reset.withFetchWord 8 2))).map State.run = some .halted := by
  decide +kernel
theorem test_fetch_drive : sent (step ((at_ 0).withFetchWord 128 (0xFF0C0000 + 0x3F800000 * 2 ^ 32))) =
    some [.status .okDrive, .act .gateAcq, .act (.setTrans 0x44A3937F), .act (.setRot 0), .act .gateRel] := by
  decide +kernel

/-! ### CRC32 (V-CRC) -/

theorem test_crc_check_value :
    crc32 Config.crcVariant [0x31, 0x32, 0x33, 0x34, 0x35, 0x36, 0x37, 0x38, 0x39] = 0xCBF43926 := by decide +kernel
theorem test_crc_zeros : crc32 Config.crcVariant (List.replicate 16 0) = 0xECBB4B55 := by decide +kernel
theorem test_crc_ones : crc32 Config.crcVariant (List.replicate 16 0xFF) = 0x3FB3C61A := by decide +kernel
/-- V-CRC-4: the reserved bytes are covered. -/
theorem test_crc_reserved : crcComputed 0xFF0000013F8000000000000000000000F096EE68 = 0x2D0037ED := by decide +kernel
/-- V-CRC-5: the checksum field is big-endian. -/
theorem test_crc_byte_order : crcOk 0xFF0000003F800000000000000000000068EE96F0 = false := by decide +kernel

/-! ### Datapath -/

/-- V-NRM-2. -/
theorem test_normalize : (runDraw (normalize 0x40400000 0 0x40800000) 0).1 = (0x3F19999A, 0, 0x3F4CCCCD) := by
  decide +kernel
/-- V-NRM-4. -/
theorem test_normalize_negative :
    (runDraw (normalize 0x40000000 0xC0000000 0x3F800000) 0).1 = (0x3F2AAAAB, 0xBF2AAAAB, 0x3EAAAAAB) := by
  decide +kernel
/-- V-NRM-8 and V-NRM-9: the square overflows; the sum of two finite squares does. -/
theorem test_normalize_overflow : (runDraw (normalize 0x60AD78EC 0 0) 0).1 = (0, 0, 0) ∧
    (runDraw (normalize 0x5F502AB5 0x5F502AB5 0) 0).1 = (0, 0, 0) := by decide +kernel
/-- V-NRM-5: 0 / 0 and every sum with a NaN answer the NaN at hand. -/
theorem test_invalid :
    fdivWith 0x7FC00001 0 0x80000000 = 0x7FC00001 ∧ faddWith 0x7FC00001 0xFFC00000 0 = 0x7FC00001 := by decide +kernel

/-- An entry with the given axes and time. -/
def entry (x y z : F32) (ts : Nat) : Entry := ⟨x, y, z, ts⟩

/-- V-FLT-2. -/
theorem test_sma : (runDraw (sma [entry 0 0 0x3F800000 3, entry 0 0x3F800000 0 2, entry 0x3F800000 0 0 1]) 0).1 =
    (0x3EAAAAAB, 0x3EAAAAAB, 0x3EAAAAAB) := by decide +kernel
/-- V-FLT-7. -/
theorem test_ema : (runDraw (ema [entry 0 0 0x3F800000 2, entry 0 0x3F800000 0 1]) 0).1 =
    (0, 0x3E800000, 0x3F400001) := by decide +kernel
/-- V-FLT-6: the decays of windows of 12 and of 21 entries. -/
theorem test_ema_decay :
    ([12, 21].map fun n => (runDraw (emaDecay n) 0).1) = [0x3E1D89D9, 0x3DBA2E8C] := by decide +kernel
/-- V-HIST-4 and V-HIST-5: an age of exactly 1 000 000 µs is kept. -/
theorem test_window_age :
    (windowedView 1001000 [entry 0 0 0 1000]).length = 1 ∧ (windowedView 1001001 [entry 0 0 0 1000]).length = 0 := by
  decide
/-- V-HIST-3: a full FIFO loses its oldest entry and is full again. -/
theorem test_insert_trims :
    let h := (List.range 22).map fun k => entry 0 0 0 (1000 * (22 - k))
    (insertEntry (entry 0 0 0 23000) h).length = 22 ∧
      ((insertEntry (entry 0 0 0 23000) h).getLast?.map Entry.ts) = some 2000 := by decide +kernel
/-- V-ANG-2. -/
theorem test_angles : (runDraw (angles (0x3F800000, 0, 0)) 0).1 = (0, 0x42B40000) := by decide +kernel
/-- R183: −0 selects the non-negative quadrant, a NaN the negative one. -/
theorem test_quadrant : quadrant 0x80000000 = (1, 2) ∧ quadrant 0xC2B40000 = (0, 1) ∧ quadrant 0x7FC00000 = (0, 1) := by
  decide
/-- R182: lerp(1, 3, 0.25) = 1.5. -/
theorem test_lerp : (runDraw (lerp 0x3F800000 0x40400000 0x3E800000) 0).1 = 0x3FC00000 := by decide +kernel
/-- V-SYM-2. -/
theorem test_symbolic :
    (runDraw (symbolicModelB 0x42B40000 0x42B40000) 0).1 = (0x3EDEB59F, 0xBED413CC) := by decide +kernel
/-- V-SYM-5. -/
theorem test_symbolic_negative :
    (runDraw (symbolicModelB 0xC2B40000 0x42B40000) 0).1 = (0x3EDEB59F, 0x3ED413CC) := by decide +kernel
/-- V-VEL-3. -/
theorem test_velocity : (runDraw (velocity 0x3F800000 0xBF800000) 0).1 = (0x44960000, 0xC2F00000) := by decide +kernel
/-- V-VEL-8: the sum overflows. -/
theorem test_velocity_overflow : (runDraw (velocity 0x7A1A130C 0) 0).1 = (0x7F800000, 0) := by decide +kernel
/-- R102: 1 + 2 ^ −24 is a tie, and goes to even; the next value up does not. -/
theorem test_add_ties_to_even :
    faddWith 0 0x3F800000 0x33800000 = 0x3F800000 ∧ faddWith 0 0x3F800001 0x33800000 = 0x3F800002 := by decide +kernel
/-- R111: the least subnormal is kept, and half of it rounds to zero. -/
theorem test_subnormals :
    fmulWith 0 0x00000001 0x3F800000 = 0x00000001 ∧ fmulWith 0 0x00000001 0x3F000000 = 0x00000000 := by decide +kernel
/-- R103: 1 / −0 is −∞; the greatest finite value doubled is ∞. -/
theorem test_infinities : fdivWith 0 0x3F800000 0x80000000 = 0xFF800000 ∧
    faddWith 0 0x7F7FFFFF 0x7F7FFFFF = 0x7F800000 := by decide +kernel
/-- V-DEG-4. -/
theorem test_safediv : (runDraw (safediv 0x7FC00000 0x80000000) 0).1 = 0x551184E7 ∧
    (runDraw (safediv 0x3F800000 0x40800000) 0).1 = 0x3E800000 := by decide +kernel

/-! ### One step of each kind -/

/-- The history and the watchdog timestamp an outcome leaves: times only. -/
def marks (r : Machine.Result) : Option (List Nat × Nat) :=
  (nextOf r).map fun s => (s.hist.map Entry.ts, s.lastUpdate)

/-- V-OP-1: every drive row inserts one entry and writes `lastUpdate` = 1000. -/
theorem test_drive_marks :
    [Instr.driveM0 0 0 0 0x3F800000, .driveM3 0 0 0 0x3F800000, .driveM6 0 0 0 0x3F800000, .driveM12 0 0 0 0x3F800000,
      .driveDflt09 0 0 0 0x3F800000, .driveDflt0A 0 0 0 0x3F800000, .driveDflt0B 0 0 0 0x3F800000,
      .driveDflt0F 0 0 0 0x3F800000, .driveDflt10 0 0 0 0 0x3F800000, .driveDflt20 0 0 0 0 0x3F800000,
      .driveDflt40 0 0 0 0 0x3F800000, .driveDflt80 0 0 0 0 0x3F800000].all
      (fun i => marks (exec i (at_ 1000)) == some ([1000], 1000)) = true := by decide +kernel
/-- V-HIST-5, V-HIST-6: SMA and EMA evict a stale entry, NONE does not. -/
theorem test_drive_evicts :
    let s := { at_ 1001001 with hist := [entry 0 0 0x3F800000 1000] }
    [Instr.driveM1 0 0 0 0x3F800000, .driveM2 0 0 0 0x3F800000, .driveM4 0 0 0 0x3F800000, .driveM5 0 0 0 0x3F800000,
      .driveM7 0 0 0 0x3F800000, .driveM8 0 0 0 0x3F800000, .driveM13 0 0 0 0x3F800000,
      .driveM14 0 0 0 0x3F800000].all (fun i => marks (exec i s) == some ([1001001], 1001001)) = true ∧
    marks (exec (.driveM0 0 0 0 0x3F800000) s) = some ([1001001, 1000], 1001001) := by decide +kernel
/-- V-OP-1, symbolic rows for the raw sample (1, 0, 0). -/
theorem test_drive_symbolic :
    [Instr.driveM12 0 0x3F800000 0 0, .driveM13 0 0x3F800000 0 0, .driveM14 0 0x3F800000 0 0].all
      (fun i => sent (exec i (at_ 1000)) ==
        some [.status .okDrive, .act .gateAcq, .act (.setTrans 0x44A3937F), .act (.setRot 0), .act .gateRel])
      = true := by decide +kernel
/-- V-OP-2. -/
theorem test_stop : marks (exec (.stop 0 0 0 0 0 0) (at_ 1000)) = some ([], 0) ∧
    sent (exec (.stop 0 0 0 0 0 0) (at_ 1000)) =
      some [.status .okStop, .act .gateAcq, .act .stop, .act .gateRel] := by decide
/-- V-OP-3, with the gate held. -/
theorem test_badcrc : sent (exec (.frame 0xFF0000003E8000000000000000000000F096EE68)
    { at_ 1000 with gate := .heldByActuator }) = some [.status .errChecksum] := by decide +kernel
/-- V-WDT-1: 300 000 µs is not stale, 350 000 µs is. -/
theorem test_tick : sent (exec .tick { at_ 300000 with nextDeadline := 300000 }) = some [] ∧
    sent (exec .tick { at_ 350000 with nextDeadline := 350000 }) =
      some [.act .gateAcq, .act .stop, .act .gateRel] := by decide
/-- V-WDT-5: a late tick moves the deadline from the deadline. -/
theorem test_tick_late : (nextOf (exec .tick { at_ 360000 with nextDeadline := 350000, lastUpdate := 55000 })).map
    (fun s => (s.nextDeadline, s.out.length)) = some (400000, 3) := by decide
/-- V-SES-2. -/
theorem test_shutdown : sent (exec .shutdown (at_ 1000)) =
    some [.act .gateAcq, .act .stop, .act .gateRel, .act .gateAcq, .act .releaseHw, .act .gateRel] := by decide
theorem test_frame_after_shutdown :
    refusalOf (exec (.frame 0) { at_ 2000 with run := .halted }) = some .halted := by decide +kernel
/-- V-SES-4. -/
theorem test_reset : nextOf (exec .reset { at_ 5000 with run := .halted, nextDeadline := 50000, lastUpdate := 1000 }) =
    some State.reset := by decide
/-- R52, R54: a partial frame is refused on arrival. -/
theorem test_partial_frame_refused :
    refusalOf (step { State.reset with env := [.frame [0xFF] false] }) = some .partialFrame := by decide

/-- R284, R241: a stale check due at 400 000 counts a hold of 1000 µs by its length, a hold of no length by nothing, and one
that ended before the deadline by nothing. -/
theorem test_hold_counts :
    let s := { at_ 411000 with nextDeadline := 400000 }
    [[⟨408000, 409000, true⟩], [⟨408000, 408000, true⟩], [⟨390000, 400000, true⟩]].map
      (fun hs : List Hold => heldFor { s with holds := hs } ⟨.tick, 400000⟩) = [1000, 0, 0] := by decide
/-- R241: a fresh check counts no hold that kept nothing waiting, and not the present one. -/
theorem test_fresh_tick_counts_no_hold :
    heldFor { at_ 411000 with
      nextDeadline := 400000, lastUpdate := 390000, holds := [⟨402000, 403000, false⟩], gate := .heldByActuator,
      gateTakenAt := 404000 } ⟨.tick, 400000⟩ = 0 := by decide
/-- A hold that ends while a stale check is due kept it waiting. -/
theorem test_hold_ends :
    let s := { at_ 409000 with nextDeadline := 400000, gate := .heldByActuator, gateTakenAt := 408000 }
    (nextOf (gateGive s)).map (fun t => (t.gate, t.holds)) = some (.free, [⟨408000, 409000, true⟩]) ∧
    refusalOf (gateTake s) = some .gateProtocol := by decide

/-! ### Witnesses: states and operands that meet the hypotheses of the obligations -/

theorem next_of_any {r : Machine.Result} {p : State → Bool} (h : (nextOf r).any p = true) :
    ∃ t, r = .next t ∧ p t = true := by
  cases r with
  | next t => exact ⟨t, rfl, h⟩
  | fault e => cases h
  | refused e => cases h

/-- P2's first frame: DRIVE 12, 1.0, 0.0, 0.0. -/
def frameM12 : Frame := 0xFF0C00003F8000000000000000000000B563478C

/-- W8's frame. -/
def frameM0 : Frame := 0xFF0000003F8000000000000000000000F096EE68

/-- A running block with a history of two entries and an arrived drive frame. -/
def busy : State :=
  { at_ 120000 with
    hist := [entry 0 0 0x3F800000 110000, entry 0x3F800000 0 0 110000], lastUpdate := 110000, nextDeadline := 150000,
    inq := [⟨.frame frameM12, 120000, false⟩] }

/-- A halted block on which RESET is asserted. -/
def stopped : State := { at_ 120000 with run := .halted, nextDeadline := 150000, resetReq := true }

theorem busy_ready : busy.Ready := ⟨rfl, by decide, rfl⟩

theorem witness_RowsRoundTrip :
    ((Instr.stop 0 1 2 3 4 5).wellFormed = true ∧ (Instr.stop 0 1 2 3 4 5).isFrameRow = true) ∧
    (Instr.driveDflt80 0x7F 1 2 3 4).isFrameRow = true ∧
    ((Instr.frame 7).wellFormed = true ∧ (Instr.frame 7).isFrameRow = false) := by decide

theorem witness_ClassifyTakesTheFirstMatchingCase :
    crcComputed 0 ≠ crcField 0 ∧ (crcComputed frameM0 = crcField frameM0 ∧ ctlOf frameM0 = 0xFF) ∧
    (crcComputed pseudoHalt = crcField pseudoHalt ∧ ctlOf pseudoHalt ≠ 0xFF) := by decide +kernel

/-- Every row at the ends of its range of model bytes. -/
theorem witness_ModelByteSelectsItsRow :
    ([0x00, 0x01, 0x02, 0x03, 0x04, 0x05, 0x06, 0x07, 0x08, 0x09, 0x0A, 0x0B, 0x0C, 0x0D, 0x0E, 0x0F, 0x10, 0x1F, 0x20,
      0x3F, 0x40, 0x7F, 0x80, 0xFF] : List Byte).all
      (fun m => crcOk (pseudoDrive m 1 2 3) && ctlOf (pseudoDrive m 1 2 3) == 0xFF &&
        modelOf (pseudoDrive m 1 2 3) == m) = true ∧
    (0x1#4 ++ 0x0#4 = 0x10#8 ∧ 0x1#4 ++ 0xF#4 = 0x1F#8 ∧ 0x1#3 ++ 0x00#5 = 0x20#8 ∧ 0x1#3 ++ 0x1F#5 = 0x3F#8 ∧
      0x1#2 ++ 0x00#6 = 0x40#8 ∧ 0x1#2 ++ 0x3F#6 = 0x7F#8 ∧ 0x1#1 ++ 0x00#7 = 0x80#8 ∧ 0x1#1 ++ 0x7F#7 = 0xFF#8) := by
  decide +kernel

/-- V-CRC-4's two frames. -/
theorem witness_ReservedBytesHaveNoEffect :
    let G : Frame := 0xFF0000013F80000000000000000000002D0037ED
    crcOk frameM0 = true ∧ crcOk G = true ∧ ctlOf frameM0 = ctlOf G ∧ modelOf frameM0 = modelOf G ∧
      xOf frameM0 = xOf G ∧ yOf frameM0 = yOf G ∧ zOf frameM0 = zOf G ∧ rsvOf frameM0 ≠ rsvOf G := by decide +kernel

theorem witness_OneByteCorruptionFailsTheChecksum :
    crcOk frameM0 = true ∧ (0 < 16 ∧ (0xFE : Byte) ≠ frameByte frameM0 0) ∧
    (15 < 16 ∧ (0x01 : Byte) ≠ frameByte frameM0 15) := by decide +kernel

theorem witness_DecodeSampleFollowsTheChecksum : crcOk 0 = false ∧ crcOk frameM0 = true := by decide +kernel

/-- With no tick due, and with a tick due after the frame arrived. -/
theorem witness_StepRunsTheFrameAtTheHead :
    (busy.env = [] ∧ busy.run = .running ∧ busy.resetReq = false ∧
      busy.inq = ⟨.frame frameM12, 120000, false⟩ :: [] ∧ 120000 ≤ busy.now ∧ busy.now < busy.nextDeadline ∧
      withinLatency busy ⟨.frame frameM12, 120000⟩ = true) ∧
    (let s := { busy with now := 150000, holds := [⟨120000, 150000, true⟩] }
     s.inq = ⟨.frame frameM12, 120000, false⟩ :: [] ∧ 120000 ≤ s.now ∧ ¬ s.now < s.nextDeadline ∧
      120000 < s.nextDeadline ∧ withinLatency s ⟨.frame frameM12, 120000⟩ = true) := by decide +kernel

/-- Due on its own, due at a `commit` move, nothing due; then a hold that ended at the very arrival, with the gate free
and, for an operation that needs no gate, held; and a gate held from the arrival on. -/
theorem witness_StepRunsWhatIsDue :
    (busy.env = [] ∧ nextDue busy = some ⟨.frame frameM12, 120000⟩) ∧
    nextDue { busy with env := [.commit] } = some ⟨.frame frameM12, 120000⟩ ∧
    nextDue { at_ 0 with env := [.commit] } = none ∧
    (let s := { busy with holds := [⟨110000, 120000, true⟩] }
     (∀ h ∈ s.holds, h.given ≤ 120000) ∧ s.gate = .free) ∧
    (let s := { busy with gate := .heldByActuator, gateTakenAt := 120000, now := 130000 }
     (∀ h ∈ s.holds, h.given ≤ 120000) ∧ needsGate .tick s = false ∧
     s.gate = .heldByActuator ∧ needsGate (.frame frameM12) s = true ∧ s.gateTakenAt ≤ 120000) := by decide +kernel

/-- The frame earlier than the tick, later than it, and at the same instant in both orders. -/
theorem witness_EventsCommitInArrivalOrder :
    ([(149999, false), (150001, false), (150000, false), (150000, true)] : List (Nat × Bool)).all (fun p =>
      let s := { busy with now := 150001, inq := [⟨.shutdown, p.1, p.2⟩] }
      decide (s.run = .running) && decide (s.resetReq = false) && decide (p.1 ≤ s.now) &&
        decide (s.nextDeadline ≤ s.now)) = true := by decide

theorem witness_ResetGoesAheadOfEverything :
    stopped.resetReq = true ∧ stopped.env = [] ∧ { busy with resetReq := true }.resetReq = true := by decide

/-- The ends of every range of the moves. -/
theorem witness_WorldMovesResult :
    packFrame (wireBytes frameM0) = .ok frameM0 ∧ busy.run = .running ∧ ([] : List Byte).length ≠ 20 ∧
    stopped.run = .halted ∧ (wireBytes 0).length = 20 ∧ (busy.now ≤ 120000 ∧ 120000 < 2 ^ 64) ∧
    (busy.now ≤ 2 ^ 64 - 1 ∧ 2 ^ 64 - 1 < 2 ^ 64) ∧ 119999 < busy.now ∧ (busy.now ≤ 2 ^ 64 ∧ 2 ^ 64 ≤ 2 ^ 64) ∧
    busy.gate = .free ∧ { busy with gate := .heldByActuator }.gate = .heldByActuator := by
  refine ⟨?_, ?_⟩
  · rfl
  · decide

/-- For the three drive results, the frame results and SHUTDOWN. -/
theorem witness_UnfilteredDriveResult :
    busy.Ready ∧ (Instr.driveDflt80 0x7F 0 1 2 3, Algorithm.bilinear) ∈
      [(Instr.driveM0 0 1 2 3, Algorithm.bilinear), (.driveM3 0 1 2 3, .shepardLo), (.driveM6 0 1 2 3, .shepardHi),
        (.driveM12 0 1 2 3, .symbolicModelB), (.driveDflt09 0 1 2 3, .bilinear), (.driveDflt0A 0 1 2 3, .bilinear),
        (.driveDflt0B 0 1 2 3, .bilinear), (.driveDflt0F 0 1 2 3, .bilinear), (.driveDflt10 0xF 0 1 2 3, .bilinear),
        (.driveDflt20 0x1F 0 1 2 3, .bilinear), (.driveDflt40 0x3F 0 1 2 3, .bilinear),
        (.driveDflt80 0x7F 0 1 2 3, .bilinear)] :=
  ⟨busy_ready, by decide⟩
theorem witness_SmaDriveResult :
    busy.Ready ∧ (Instr.driveM4 0 1 2 3, Algorithm.shepardLo) ∈
      [(Instr.driveM1 0 1 2 3, Algorithm.bilinear), (.driveM4 0 1 2 3, .shepardLo), (.driveM7 0 1 2 3, .shepardHi),
        (.driveM13 0 1 2 3, .symbolicModelB)] :=
  ⟨busy_ready, by decide⟩
theorem witness_EmaDriveResult :
    busy.Ready ∧ (Instr.driveM14 0 1 2 3, Algorithm.symbolicModelB) ∈
      [(Instr.driveM2 0 1 2 3, Algorithm.bilinear), (.driveM5 0 1 2 3, .shepardLo), (.driveM8 0 1 2 3, .shepardHi),
        (.driveM14 0 1 2 3, .symbolicModelB)] :=
  ⟨busy_ready, by decide⟩
theorem witness_StopFrameResult : busy.Ready := busy_ready
theorem witness_BadCrcFrameResult :
    ({ busy with gate := .heldByActuator } : State).run = .running ∧ busy.now < 2 ^ 64 := by decide
theorem witness_FrameEventResult :
    busy.Ready ∧ crcOk 0 = false ∧ (crcOk pseudoHalt = true ∧ ctlOf pseudoHalt ≠ 0xFF) ∧
    (crcOk frameM12 = true ∧ ctlOf frameM12 = 0xFF) := ⟨busy_ready, by decide +kernel⟩
/-- At the two sides of the timeout. -/
theorem witness_TickResult :
    (busy.run = .running ∧ busy.now < 2 ^ 64 ∧ busy.nextDeadline + 50000 < 2 ^ 64) ∧
    (let s := { busy with now := 410000 }
     s.now - s.lastUpdate = 300000 ∧ s.now < 2 ^ 64) ∧
    (let s := { busy with now := 410001 }
     s.now - s.lastUpdate = 300001 ∧ s.now < 2 ^ 64 ∧ s.gate = .free) := by decide
theorem witness_ShutdownResult : busy.Ready := busy_ready
theorem witness_ResetResult : stopped.gate = .free ∧ busy.gate = .free := by decide
theorem witness_PowerOnIsAReset :
    busy.gate = .free ∧ busy.out = [] ∧ busy.draws = 0 ∧ busy.env = [] := by decide
theorem witness_GatedOperationsWait :
    let s := { busy with gate := .heldByActuator, now := 410001 }
    (s.run = .running ∧ s.now < 2 ^ 64 ∧ s.gate = .heldByActuator) ∧
    (Instr.driveM0 0 1 2 3).driveFields.isSome = true ∧ crcOk frameM12 = true ∧
    (300000 < s.now - s.lastUpdate ∧ s.nextDeadline + 50000 < 2 ^ 64) ∧ needsGate .tick s = true ∧
    { stopped with gate := .heldByActuator }.gate = .heldByActuator := by decide +kernel
theorem witness_HaltedBlockRefuses : stopped.run = .halted ∧ Instr.tick ≠ .reset := by decide
theorem witness_TimeLimitRefuses :
    (let s := { busy with now := 2 ^ 64 }
     s.run = .running ∧ 2 ^ 64 ≤ s.now) ∧
    (let s := { busy with nextDeadline := 2 ^ 64 - 50000 }
     s.run = .running ∧ s.now < 2 ^ 64 ∧ 2 ^ 64 ≤ s.nextDeadline + 50000) := by decide

/-! #### Steps -/

theorem busy_inv : busy.Inv where
  hist_length := by decide
  hist_order := by unfold newestFirst; decide
  hist_past := by decide
  lastUpdate_le := by decide
  now_lt := by decide
  deadline_lt := by decide
  deadline_period := ⟨3, by decide, rfl⟩
  inq_order := by unfold oldestFirst; decide
  inq_past := by decide
  halted_empty := by decide
  gateTakenAt_le := by decide
  holds_past := by decide
  holds_order := List.Pairwise.nil
  holds_before := by decide

/-- A drive frame commits: the history, the queue, the timestamp and the trace change. -/
theorem witness_StepKeepsTheInvariant :
    busy.Inv ∧ ∃ t, step busy = .next t ∧ (t.hist.length == 3 && t.inq.isEmpty) = true :=
  ⟨busy_inv, next_of_any (by decide +kernel)⟩
theorem witness_StepKeepsBrackets :
    wellBracketed busy.out ∧ ∃ t, step busy = .next t ∧ (t.out.length == 5) = true :=
  ⟨rfl, next_of_any (by decide +kernel)⟩
theorem witness_TraceIsAppendOnly : ∃ t, step busy = .next t ∧ (t.out.length != busy.out.length) = true :=
  next_of_any (by decide +kernel)
theorem witness_EnableIsSentByResetOnly :
    ∃ t, step stopped = .next t ∧ (enables t.out != enables stopped.out) = true := next_of_any (by decide +kernel)
theorem witness_OnlyDriveOrResetWritesLastUpdate :
    (∃ t, step busy = .next t ∧ (t.lastUpdate != busy.lastUpdate) = true) ∧
    ∃ t, step { busy with resetReq := true } = .next t ∧ (t.lastUpdate != busy.lastUpdate) = true :=
  ⟨next_of_any (by decide +kernel), next_of_any (by decide +kernel)⟩
theorem witness_OnlyDriveOrResetChangesTheHistory :
    busy.Inv ∧ ∃ t, step busy = .next t ∧ (t.hist != busy.hist) = true :=
  ⟨busy_inv, next_of_any (p := fun t => t.hist != busy.hist) (by decide +kernel)⟩
theorem witness_OnlyResetLeavesHalted :
    stopped.run = .halted ∧ (∃ t, step stopped = .next t ∧ (t.run == .running) = true) ∧
    ∃ t, step { stopped with resetReq := false } = .next t ∧ (t.run == .halted) = true :=
  ⟨rfl, next_of_any (by decide +kernel), next_of_any (by decide +kernel)⟩
theorem witness_TimeGoesBackOnlyAtReset : ∃ t, step stopped = .next t ∧ decide (t.now < stopped.now) = true :=
  next_of_any (by decide +kernel)
theorem witness_DeadlineMovesByOnePeriod :
    ∃ t, step { busy with now := 150000, inq := [] } = .next t ∧ (t.nextDeadline == 200000) = true :=
  next_of_any (by decide +kernel)

/-- The block on its own, the drive frame processed. -/
def idle : State := { busy with inq := [] }

theorem witness_StopLatencyBound :
    idle.Inv ∧ idle.env = [] ∧ idle.inq = [] ∧ idle.run = .running ∧ idle.gate = .free ∧ idle.resetReq = false ∧
    idle.now ≤ idle.nextDeadline ∧ idle.nextDeadline ≤ idle.now + 50000 ∧ idle.now ≤ idle.lastUpdate + 300000 ∧
    idle.now + 1000000 < 2 ^ 64 :=
  ⟨{ busy_inv with inq_order := List.Pairwise.nil, inq_past := (by decide), halted_empty := (by decide) }, by decide⟩

/-! #### History and datapath -/

theorem witness_InsertTrimsThenPushes : 21 ≤ (List.replicate 21 (entry 0 0 0 0)).length := by decide
/-- One entry at the age limit and one beyond it. -/
theorem witness_WindowIsTheFreshEntries : newestFirst [entry 0 0 0 1000, entry 0 0 0 999] := by
  unfold newestFirst; decide
theorem witness_WindowHoldsTheNewSample :
    let h := [entry 0 0 0 1000, entry 0 0 0 999]
    newestFirst h ∧ (entry 0 0 0 1001000).ts = 1001000 ∧ ∀ x ∈ h, x.ts ≤ 1001000 := by
  unfold newestFirst; decide
/-- Two later inserts, the first at the time of the early read, the second with a window read of its own. -/
theorem witness_EarlyEvictionChangesNoWindow :
    let h := [entry 0 0 0 1000, entry 0 0 0 999]
    let ops := [(entry 0 0 0 1001000, false), (entry 0 0 0 1001001, true)]
    newestFirst h ∧ (∀ x ∈ h, x.ts ≤ 1001000) ∧ 1001000 ≤ 1001001 ∧ (ops.map (·.1.ts)).Pairwise (· ≤ ·) ∧
    ∀ p ∈ ops, 1001000 ≤ p.1.ts ∧ p.1.ts ≤ 1001001 := by
  unfold newestFirst; decide
theorem witness_RoundingIsToNearestEven : 0 < 1 := by decide

theorem value_one : f32Value 0x3F800000 = 1 := by
  have h1 : fSign 0x3F800000 = false := by decide
  have h2 : fSig 0x3F800000 = 2 ^ 23 := by decide
  have h3 : fUnit 0x3F800000 = -23 := by decide
  rw [f32Value, h1, h2, h3]
  norm_num
theorem value_minus_one : f32Value 0xBF800000 = -1 := by
  have h1 : fSign 0xBF800000 = true := by decide
  have h2 : fSig 0xBF800000 = 2 ^ 23 := by decide
  have h3 : fUnit 0xBF800000 = -23 := by decide
  rw [f32Value, h1, h2, h3]
  norm_num

theorem witness_SumsAndProductsAreRoundedOnce :
    (isFinite 0x3F800000 = true ∧ f32Value 0x3F800000 + f32Value 0x3F800000 ≠ 0) ∧
    (isFinite 0xBF800000 = true ∧ f32Value 0x3F800000 + f32Value 0xBF800000 = 0) ∧
    (isInf 0xFF800000 = true ∧ isNaN 0x00000001 = false ∧ isFinite 0x00000001 = true ∧ isZero 0x00000001 = false ∧
      fSign 0xFF800000 = fSign 0xFF800000) := by
  rw [value_one, value_minus_one]
  refine ⟨⟨by decide, by norm_num⟩, ⟨by decide, by norm_num⟩, by decide⟩
theorem witness_QuotientsAndRootsAreRoundedOnce :
    isFinite 0x00000001 = true ∧ isFinite 0x7F7FFFFF = true ∧ isZero 0x00000001 = false ∧ isZero 0x7F7FFFFF = false ∧
    fSign 0x00000001 = false ∧ isZero 0x80000000 = true ∧ isInf 0xFF800000 = true ∧ isFinite 0x80000000 = true := by
  decide
/-- One pair of operands for each clause. -/
theorem witness_InvalidOperationsDrawANaN :
    isNaN 0x7F800001 = true ∧ (isInf 0x7F800000 = true ∧ isInf 0xFF800000 = true ∧ fSign 0x7F800000 ≠ fSign 0xFF800000) ∧
    fSign 0x7F800000 = fSign 0x7F800000 ∧ isZero 0x80000000 = true ∧
    (isZero 0x80000001 = false ∧ fSign 0x80000001 = true) := by decide
theorem witness_EveryNaNCanBeDrawn : isNaN 0xFFFFFFFF = true ∧ isNaN 0x7F800000 = false := by decide
theorem witness_ComparisonsAreOrdered :
    isNaN 0x7FC00000 = true ∧ (isFinite 0x00000000 = true ∧ isFinite 0x80000000 = true) ∧
    (isNaN 0x7F800000 = false ∧ isNaN 0xFF800000 = false) := by decide
theorem witness_ProtectedPrimitives :
    isNaN 0xFF800000 = false ∧ (0x00000001#32 ≠ 0x00000000#32 ∧ 0x00000001#32 ≠ 0x80000000#32) ∧
    isNaN 0x7FC00000 = true := by decide
/-- One pair (y, x) for each clause. -/
theorem witness_Atan2HasItsNamedProperties :
    (isNaN 0x7F800000 = false ∧ isNaN 0xFF800000 = false) ∧ (isZero 0x80000000 = true ∧ fSign 0x00000000 = false) ∧
    fSign 0x80000000 = true ∧ (isZero 0x00000001 = false ∧ isNaN 0x00000001 = false ∧ isZero 0x80000000 = true) ∧
    flt Config.zero 0x00000001 = true ∧ isNaN 0x7F800001 = true := by decide
theorem witness_SinCosHaveTheirNamedProperties :
    isZero 0x80000000 = true ∧ isFinite 0x7F7FFFFF = true ∧ isNaN 0x7F800001 = true ∧ isInf 0xFF800000 = true := by
  decide
/-- b = −1.5, which is no odd integer; a NaN; a = 1. -/
theorem witness_PowHasItsNamedProperties :
    (flt 0xBFC00000 Config.zero = true ∧ isOddInteger 0xBFC00000 = false) ∧
    (isNaN 0x7FC00000 = true ∧ feq 0xBFC00000 Config.zero = false) ∧
    (flt Config.zero 0x3F800000 = true ∧ isFinite 0x3F800000 = true) := by decide +kernel
/-- The entry (+0, −0, 1). -/
theorem witness_FiltersOfASingleSample :
    isNaN 0x00000000 = false ∧ isNaN 0x80000000 = false ∧ isNaN 0x3F800000 = false := by decide
theorem witness_NaNEntriesPoisonTheFilters :
    let e := entry 0x7FC00000 0xFFC00000 0x7F800001 1
    e ∈ [entry 0 0 0x3F800000 2, e] ∧ isNaN e.ax = true ∧ isNaN e.ay = true ∧ isNaN e.az = true := by decide
/-- A code without a filter; one with a filter, every entry of the history one microsecond too old. -/
theorem witness_StraightUpStandsStill :
    (busy.Ready ∧ Instr.driveM12 0 0 0 0x3F800000 ∈
      [Instr.driveM0 0 0 0 0x3F800000, .driveDflt09 0 0 0 0x3F800000, .driveDflt0A 0 0 0 0x3F800000,
        .driveDflt0B 0 0 0 0x3F800000, .driveDflt0F 0 0 0 0x3F800000, .driveDflt10 0xF 0 0 0 0x3F800000,
        .driveDflt20 0x1F 0 0 0 0x3F800000, .driveDflt40 0x3F 0 0 0 0x3F800000, .driveDflt80 0x7F 0 0 0 0x3F800000,
        .driveM12 0 0 0 0x3F800000]) ∧
    (let s := { busy with now := 1110001 }
     s.Ready ∧ (∀ e ∈ s.hist, 1000000 < s.now - e.ts) ∧ Instr.driveM14 0 0 0 0x3F800000 ∈
      [Instr.driveM1 0 0 0 0x3F800000, .driveM2 0 0 0 0x3F800000, .driveM13 0 0 0 0x3F800000,
        .driveM14 0 0 0 0x3F800000]) :=
  ⟨⟨busy_ready, by decide⟩, ⟨rfl, by decide, rfl⟩, by decide⟩
theorem witness_StraightUpUnderIdwSendsNaN :
    busy.Ready ∧ Instr.driveM6 0 0 0 0x3F800000 ∈ [Instr.driveM3 0 0 0 0x3F800000, .driveM6 0 0 0 0x3F800000] :=
  ⟨busy_ready, by decide⟩
theorem value_zero : f32Value 0x00000000 = 0 := by
  have h : fSig 0x00000000 = 0 := by decide
  rw [f32Value, h]
  norm_num
/-- 2 ^ 64, the least component that alone makes the sum of squares overflow. -/
theorem value_2_64 : f32Value 0x5F800000 = 2 ^ 64 := by
  have h1 : fSign 0x5F800000 = false := by decide
  have h2 : fSig 0x5F800000 = 2 ^ 23 := by decide
  have h3 : fUnit 0x5F800000 = 41 := by decide
  rw [f32Value, h1, h2, h3]
  norm_num
/-- About 1.5e19 (V-NRM-9): the squares of two such components are finite and overflow in their sum. -/
theorem square_1_5e19 : 2 ^ 127 ≤ f32Value 0x5F502AB5 ^ 2 := by
  have h1 : fSign 0x5F502AB5 = false := by decide
  have h2 : fSig 0x5F502AB5 = 0xD02AB5 := by decide
  have h3 : fUnit 0x5F502AB5 = 40 := by decide
  rw [f32Value, h1, h2, h3]
  norm_num
/-- −2 ^ −75, the greatest component whose square underflows to 0. -/
theorem value_2_m75 : f32Value 0x9A000000 = -(1 / 2 ^ 75) := by
  have h1 : fSign 0x9A000000 = true := by decide
  have h2 : fSig 0x9A000000 = 2 ^ 23 := by decide
  have h3 : fUnit 0x9A000000 = -98 := by decide
  rw [f32Value, h1, h2, h3]
  norm_num

/-- One sample for each clause: a zero vector, a NaN, an infinity beside a finite axis, an overflow in the
sum alone (V-NRM-9), in one square, in a sum of two squares, an underflow. -/
theorem witness_DegenerateValuesPropagate :
    (isZero 0x00000000 = true ∧ isZero 0x80000000 = true) ∧ isNaN 0xFFC00000 = true ∧
    (isNaN 0xFF800000 = false ∧ isNaN 0x3F800000 = false ∧ isInf 0xFF800000 = true ∧ isFinite 0x3F800000 = true) ∧
    (isFinite 0x5F502AB5 = true ∧ isFinite 0x00000000 = true ∧ isInf (fmulWith 0 0x5F502AB5 0x5F502AB5) = false ∧
      isInf (faddWith 0 (faddWith 0 (fmulWith 0 0x5F502AB5 0x5F502AB5) (fmulWith 0 0x5F502AB5 0x5F502AB5))
        (fmulWith 0 0x00000000 0x00000000)) = true) ∧
    (isFinite 0x5F800000 = true ∧ 2 ^ 64 ≤ |f32Value 0x5F800000|) ∧
    2 ^ 127 ≤ f32Value 0x5F502AB5 ^ 2 ∧
    (isFinite 0x9A000000 = true ∧ isZero 0x9A000000 = false ∧ |f32Value 0x9A000000| * 2 ^ 75 ≤ 1 ∧
      |f32Value 0x00000000| * 2 ^ 75 ≤ 1) := by
  rw [value_2_64, value_2_m75, value_zero]
  refine ⟨by decide, by decide, by decide, by decide +kernel, ⟨by decide, by norm_num⟩, square_1_5e19, by decide, by decide,
    ?_, by norm_num⟩
  rw [abs_neg, abs_of_pos (by positivity)]
  norm_num

end Sys2Proof.Tests
end

section
/-! PROOF. What each operation that sends commands does while the actuation agent holds the gate (R14, R241): one
equation for each shared operation, then one for `exec` over `needsGate`, from which O25 follows. -/

namespace Sys2Proof.Machine

variable {s : State} {k : Result} {i : Instr}

/-! ### The operations, while the gate is held -/

theorem whenRunning_held (hr : s.run = .running) (hn : s.now < Config.timeLimit) (hg : s.gate = .heldByActuator) :
    whenRunning s (whenGateFree s k) = .next s := by
  rw [whenRunning_of hr hn, whenGateFree_held hg]

theorem driveOp_held (alg : Algorithm) (filt : Filter) (x y z : F32) (hr : s.run = .running)
    (hn : s.now < Config.timeLimit) (hg : s.gate = .heldByActuator) : driveOp alg filt x y z s = .next s :=
  whenRunning_held hr hn hg

theorem stopOp_held (hr : s.run = .running) (hn : s.now < Config.timeLimit) (hg : s.gate = .heldByActuator) :
    stopOp s = .next s :=
  whenRunning_held hr hn hg

theorem shutdownOp_held (hr : s.run = .running) (hn : s.now < Config.timeLimit) (hg : s.gate = .heldByActuator) :
    shutdownOp s = .next s :=
  whenRunning_held hr hn hg

/-- The next deadline must be in range: its overflow is refused before the gate is asked (R100). -/
theorem tickOp_held (hr : s.run = .running) (hn : s.now < Config.timeLimit) (hg : s.gate = .heldByActuator)
    (hs : stale s.now s.lastUpdate = true) (hd : nextCheck s < Config.timeLimit) : tickOp s = .next s := by
  rw [tickOp, whenRunning_of hr hn, if_neg (Nat.not_le.mpr hd), if_pos hs, whenGateFree_held hg]

/-- RESET waits in either run state and at any time (R247). -/
theorem resetOp_held (hg : s.gate = .heldByActuator) : resetOp s = .next s := whenGateFree_held hg

/-- A frame whose checksum is good is a STOP or a drive frame (R74), and both need the gate. -/
theorem execFrame_held {F : Frame} (hr : s.run = .running) (hn : s.now < Config.timeLimit)
    (hg : s.gate = .heldByActuator) (hc : crcOk F = true) : execFrame F s = .next s := by
  unfold execFrame
  split
  next hb => cases hd : driveOf F <;> simp [classify, hc, hd] at hb
  next => exact stopOp_held hr hn hg
  next => exact driveOp_held _ _ _ _ _ hr hn hg

/-! ### Every instruction that needs the gate -/

/-- The drive rows need the gate. -/
theorem needsGate_of_driveFields (h : i.driveFields.isSome = true) : needsGate i s = true := by
  cases i with
  | frame | stop | badcrc | tick | shutdown | reset => cases h
  | driveM0 | driveM1 | driveM2 | driveM3 | driveM4 | driveM5 | driveM6 | driveM7 | driveM8 | driveM12 | driveM13
  | driveM14 | driveDflt09 | driveDflt0A | driveDflt0B | driveDflt0F | driveDflt10 | driveDflt20 | driveDflt40
  | driveDflt80 => rfl

/-- `exec_waits` gives the next state if there is one; this says there is one, for an operation that is not refused. -/
theorem exec_held (hr : s.run = .running) (hn : s.now < Config.timeLimit) (hg : s.gate = .heldByActuator)
    (hw : needsGate i s = true) (hd : i = .tick → nextCheck s < Config.timeLimit) : exec i s = .next s := by
  cases i with
  | frame F => exact execFrame_held hr hn hg hw
  | badcrc => cases hw
  | tick => exact tickOp_held hr hn hg hw (hd rfl)
  | stop => exact stopOp_held hr hn hg
  | shutdown => exact shutdownOp_held hr hn hg
  | reset => exact resetOp_held hg
  | driveM0 | driveM1 | driveM2 | driveM3 | driveM4 | driveM5 | driveM6 | driveM7 | driveM8 | driveM12 | driveM13
  | driveM14 | driveDflt09 | driveDflt0A | driveDflt0B | driveDflt0F | driveDflt10 | driveDflt20 | driveDflt40
  | driveDflt80 => exact driveOp_held _ _ _ _ _ hr hn hg

end Sys2Proof.Machine

namespace Sys2Proof.Proofs

open Sys2Proof.Machine

/-- Settles O25: each clause names instructions that need the gate, so `exec_held` gives it; only TICK has a deadline to
keep in range, and RESET alone is held whatever the run state and the time. -/
theorem gatedOperationsWait : Obligations.GatedOperationsWait := by
  intro s i hg
  refine ⟨fun hr hn => ⟨fun hi => ?drive, ?frame, ?stop, ?tick, ?shutdown, fun hw hd => ?gated⟩, ?reset⟩
  case drive =>
    have hnt : i ≠ .tick := by rintro rfl; cases hi
    exact exec_held hr hn hg (needsGate_of_driveFields hi) fun ht => absurd ht hnt
  case frame =>
    rintro F rfl hc
    exact execFrame_held hr hn hg hc
  case stop =>
    rintro ctl model rsv x y z rfl
    exact stopOp_held hr hn hg
  case tick =>
    rintro rfl hs hd
    exact tickOp_held hr hn hg (decide_eq_true hs) hd
  case shutdown =>
    rintro rfl
    exact shutdownOp_held hr hn hg
  case gated => exact exec_held hr hn hg hw fun _ => hd
  case reset =>
    rintro rfl
    exact resetOp_held hg

end Sys2Proof.Proofs
end

section
/-! PROOF. What one step does to the state of the block (10_state.md). `step_kind` sorts the steps by what they do to the
time, the history, `lastUpdate` and the trace: a RESET, a drive frame, or neither. The rules on these fields (O31, O33,
O34, O36) and on Halted (O35) follow from it and from `Stepped`. -/

namespace Sys2Proof.Machine

variable {s t : State} {i : Instr}

/-! ### What the commits write, as one update of the state -/

/-- R218. -/
theorem stopCommit_eq (s : State) :
    stopCommit s =
      { s with inq := s.inq.tail, out := s.out ++ [.status .okStop, .act .gateAcq, .act .stop, .act .gateRel] } :=
  congrArg (fun o => { s with inq := s.inq.tail, out := o }) (List.append_assoc ..)

theorem driveCommit_out_trace (s : State) (r : PipelineResult) (d : Nat) :
    (driveCommit s r d).out = s.out ++ driveTrace r.v r.w :=
  List.append_assoc ..

/-- R203, R204, R221. -/
theorem driveCommit_eq (s : State) (r : PipelineResult) (d : Nat) :
    driveCommit s r d =
      { s with
        hist := r.hist, lastUpdate := s.now, inq := s.inq.tail, draws := d, out := s.out ++ driveTrace r.v r.w } := by
  rw [← driveCommit_out_trace s r d]
  rfl

/-- R243: a RESET sends ENABLE in one bracket. -/
theorem resetCommit_out_trace (s : State) :
    (resetCommit s).out = s.out ++ [.act .gateAcq, .act .enable, .act .gateRel] := rfl

/-! ### What a drive frame does to the history -/

/-- `h` is the history of `s` after the insert of one sample at the commit time: its entry, then entries that the trim of
the insert left (R152) and no window read evicted (R155). -/
def InsertsSample (s : State) (h : List Entry) : Prop :=
  ∃ e rest, h = e :: rest ∧ e.ts = s.now ∧ rest <+: trim s.hist

/-- With or without a window read, a filter leaves the entry of the commit time at the front (R156). -/
theorem applyFilter_hist (filt : Filter) (e : Entry) (h : List Entry) (n : Nat) :
    ∃ rest, (runDraw (applyFilter filt e.ts e (e :: h)) n).1.2 = e :: rest ∧ rest <+: h := by
  cases filt with
  | none => exact ⟨h, by rw [runDraw_applyFilter_none], List.prefix_rfl⟩
  | sma =>
    rw [runDraw_applyFilter_sma]
    exact windowedView_cons_now e h
  | ema =>
    rw [runDraw_applyFilter_ema]
    exact windowedView_cons_now e h

theorem pipelineAt_insertsSample (alg : Algorithm) (filt : Filter) (x y z : F32) (s : State) :
    InsertsSample s (pipelineAt alg filt x y z s).1.hist := by
  have hts := newEntry_ts s.now x y z s.draws
  rw [pipelineAt, runDraw_drivePipeline]
  generalize runDraw (newEntry s.now x y z) s.draws = en at hts ⊢
  obtain ⟨rest, hw, hp⟩ := applyFilter_hist filt en.1 (trim s.hist) en.2
  rw [hts] at hw
  exact ⟨en.1, rest, hw, hts, hp⟩

/-! ### What a step does to time, history, `lastUpdate` and trace -/

/-- What every step but a RESET and a drive frame keeps: time does not decrease (R24), the history and `lastUpdate` stay
(R158, R26), and the trace only grows (R31). -/
structure KeepsSamples (s t : State) : Prop where
  now_le : s.now ≤ t.now
  hist_eq : t.hist = s.hist
  lastUpdate_eq : t.lastUpdate = s.lastUpdate
  out_grows : ∃ more, t.out = s.out ++ more

/-- A step that sends nothing and leaves the history and `lastUpdate`. -/
theorem KeepsSamples.of_out_eq (hn : s.now ≤ t.now) (hh : t.hist = s.hist) (hl : t.lastUpdate = s.lastUpdate)
    (ho : t.out = s.out) : KeepsSamples s t :=
  ⟨hn, hh, hl, [], by rw [ho, List.append_nil]⟩

/-- An instruction that commits is a RESET, inserts a sample, or keeps the samples. -/
theorem Committed.kind (h : Committed i s t) :
    (i = .reset ∧ t = resetCommit s) ∨
    (∃ r d, t = driveCommit s r d ∧ InsertsSample s r.hist) ∨ KeepsSamples s t := by
  cases h with
  | reset hi => exact .inl ⟨hi, rfl⟩
  | drive alg filt x y z => exact .inr (.inl ⟨_, _, rfl, pipelineAt_insertsSample alg filt x y z s⟩)
  | held | freshTick => exact .inr (.inr (.of_out_eq le_rfl rfl rfl rfl))
  | stop => exact .inr (.inr ⟨le_rfl, rfl, rfl, _, List.append_assoc ..⟩)
  | badcrc | staleTick | shutdown => exact .inr (.inr ⟨le_rfl, rfl, rfl, _, rfl⟩)

/-- A step is a RESET that was asked for, a drive frame, or keeps the samples: the moves of the world all keep them. -/
theorem step_kind (h : step s = .next t) :
    (s.resetReq = true ∧ t = resetCommit s.afterMove) ∨
    (∃ r d, t = driveCommit s.afterMove r d ∧ InsertsSample s r.hist) ∨ KeepsSamples s t := by
  cases step_next h with
  | commit d hd _ _ hx =>
    obtain ⟨hi, ht⟩ | ⟨r, n, ht, hins⟩ | ⟨hn, hh, hl, ho⟩ := (exec_next hx).kind
    · exact .inl ⟨nextDue_reset hd hi, ht⟩
    · exact .inr (.inl ⟨r, n, ht, hins⟩)
    · exact .inr (.inr ⟨hn, hh, hl, ho⟩)
  | advance u hu => exact .inr (.inr (.of_out_eq hu rfl rfl rfl))
  | same | arrive | reset | gateTake | gateGive => exact .inr (.inr (.of_out_eq le_rfl rfl rfl rfl))

/-! ### Halted -/

/-- In Halted an instruction that is not refused is held, or is a RESET (R28). -/
theorem Committed.of_halted (hr : s.run = .halted) (h : Committed i s t) :
    t = s ∨ (i = .reset ∧ t = resetCommit s) := by
  cases h with
  | held => exact .inl rfl
  | reset hi => exact .inr ⟨hi, rfl⟩
  | drive _ _ _ _ _ hrun | stop hrun | badcrc hrun | staleTick hrun | freshTick hrun | shutdown hrun =>
    cases hr.symm.trans hrun

end Sys2Proof.Machine

namespace Sys2Proof.Proofs

open Sys2Proof.Machine

/-- Settles O31: each kind of step appends to the trace. -/
theorem traceIsAppendOnly : Obligations.TraceIsAppendOnly := by
  intro s t h
  obtain ⟨-, rfl⟩ | ⟨r, d, rfl, -⟩ | hk := step_kind h
  · exact ⟨_, rfl⟩
  · exact ⟨_, driveCommit_out_trace ..⟩
  · exact hk.out_grows

/-- Settles O33: of the kinds of step only the drive frame and the RESET write `lastUpdate`. -/
theorem onlyDriveOrResetWritesLastUpdate : Obligations.OnlyDriveOrResetWritesLastUpdate := by
  intro s t h hne
  obtain ⟨-, rfl⟩ | ⟨r, d, rfl, -⟩ | hk := step_kind h
  · exact .inr ⟨rfl, rfl, resetCommit_out_trace _⟩
  · exact .inl ⟨rfl, r.v, r.w, driveCommit_out_trace ..⟩
  · exact absurd hk.lastUpdate_eq hne

/-- Settles O34: a drive frame inserts its sample before entries that the trim kept, which were there. -/
theorem onlyDriveOrResetChangesTheHistory : Obligations.OnlyDriveOrResetChangesTheHistory := by
  intro s t _ h
  obtain ⟨-, rfl⟩ | ⟨r, d, rfl, e, rest, hh, hts, hp⟩ | hk := step_kind h
  · exact .inr (.inr ⟨rfl, rfl, resetCommit_out_trace _⟩)
  · exact .inr (.inl ⟨e, rest, hh, hts, hp.trans (trim_prefix _), r.v, r.w, driveCommit_out_trace ..⟩)
  · exact .inl hk.hist_eq

/-- Settles O36: a drive frame leaves the time, and a RESET commits only if one was asked for. -/
theorem timeGoesBackOnlyAtReset : Obligations.TimeGoesBackOnlyAtReset := by
  intro s t h
  obtain ⟨hq, rfl⟩ | ⟨r, d, rfl, -⟩ | hk := step_kind h
  · exact .inr ⟨rfl, hq, resetCommit_out_trace _⟩
  · exact .inl le_rfl
  · exact .inl hk.now_le

/-- Settles O35: in Halted nothing arrives but a RESET request, and nothing commits but a RESET. -/
theorem onlyResetLeavesHalted : Obligations.OnlyResetLeavesHalted := by
  intro s t hr h
  cases step_next h with
  | commit d hd _ _ hx =>
    obtain rfl | ⟨hi, rfl⟩ := (exec_next hx).of_halted (s := s.afterMove) hr
    · exact .inl ⟨hr, rfl, rfl, rfl, rfl, rfl, rfl⟩
    · exact .inr ⟨rfl, nextDue_reset hd hi, rfl, rfl, resetCommit_out_trace _⟩
  | arrive _ _ hrun =>
    cases hr.symm.trans hrun
  | same | reset | advance | gateTake | gateGive => exact .inl ⟨hr, rfl, rfl, rfl, rfl, rfl, rfl⟩

end Sys2Proof.Proofs
end

section
/-! PROOF. The invariant of the state (10_state.md R24 to R29): one lemma for each update of the state says that it keeps
`State.Inv`, and O28 puts them together along `Committed` and `Stepped`. Where a lemma writes `{ h with … }`, the clauses
it does not list speak of fields the update leaves. -/

namespace Sys2Proof.Machine

variable {s t : State} {i : Instr}

/-! ### The parts of the updates -/

theorem State.Inv.emit (h : s.Inv) (os : List Output) : (s.emit os).Inv := { h with }

theorem State.Inv.afterMove (h : s.Inv) : s.afterMove.Inv := { h with }

/-- The queue without its head is still in order, and empty if it was. -/
theorem State.Inv.dequeue (h : s.Inv) : s.dequeue.Inv :=
  { h with
    inq_order := h.inq_order.tail
    inq_past := fun p hp => h.inq_past p (List.mem_of_mem_tail hp)
    halted_empty := fun hr => by rw [dequeue_inq, h.halted_empty hr, List.tail_nil] }

/-! ### What the instructions write -/

/-- The trim leaves room for the new entry (R153), which is the newest (R154). -/
theorem State.Inv.insertsSample (h : s.Inv) {hist : List Entry} (hi : InsertsSample s hist) :
    hist.length ≤ Config.histCap ∧ newestFirst hist ∧ ∀ e ∈ hist, e.ts ≤ s.now := by
  obtain ⟨e, rest, rfl, hts, hp⟩ := hi
  have hpast : ∀ x ∈ rest, x.ts ≤ s.now := fun x hx =>
    h.hist_past x ((hp.trans (trim_prefix _)).subset hx)
  have hlen : rest.length ≤ Config.histKeep := by
    have hle := hp.length_le
    rw [trim_eq_take, List.length_take] at hle
    omega
  refine ⟨Nat.succ_le_succ hlen, ?_, ?_⟩
  · rw [← hts] at hpast
    exact List.pairwise_cons.mpr ⟨hpast, newestFirst_prefix (hp.trans (trim_prefix _)) h.hist_order⟩
  · exact List.forall_mem_cons.mpr ⟨hts.le, hpast⟩

theorem State.Inv.driveCommit (h : s.Inv) {r : PipelineResult} (hi : InsertsSample s r.hist) (d : Nat) :
    (driveCommit s r d).Inv := by
  obtain ⟨hlen, horder, hpast⟩ := h.insertsSample hi
  exact { h.dequeue with
    hist_length := hlen
    hist_order := horder
    hist_past := hpast
    lastUpdate_le := le_rfl }

theorem State.Inv.stopCommit (h : s.Inv) : (stopCommit s).Inv := (h.dequeue.emit _).emit _

theorem State.Inv.badcrcCommit (h : s.Inv) : (badcrcCommit s).Inv := h.dequeue.emit _

/-- The schedule moves from one multiple of the period to the next (R232). -/
theorem State.Inv.nextCheck (h : s.Inv) (hd : nextCheck s < Config.timeLimit) :
    ({ s with nextDeadline := nextCheck s } : State).Inv :=
  { h with
    deadline_lt := hd
    deadline_period := by
      obtain ⟨k, -, hk⟩ := h.deadline_period
      exact ⟨k + 1, k.succ_pos, by rw [Machine.nextCheck, hk, Nat.succ_mul]⟩ }

/-- SHUTDOWN halts with an empty queue (R246). -/
theorem State.Inv.shutdownCommit (h : s.Inv) : (shutdownCommit s).Inv :=
  { h with
    inq_order := List.Pairwise.nil
    inq_past := nofun
    halted_empty := fun _ => rfl }

/-- RESET sets every field the invariant speaks of (R247), so it holds after RESET whatever held before. -/
theorem resetCommit_inv (s : State) : (resetCommit s).Inv where
  hist_length := Nat.zero_le _
  hist_order := List.Pairwise.nil
  hist_past := nofun
  lastUpdate_le := le_rfl
  now_lt := Nat.two_pow_pos 64
  deadline_lt := show Config.wdtPeriod < Config.timeLimit by decide
  deadline_period := ⟨1, Nat.one_pos, (Nat.one_mul _).symm⟩
  inq_order := List.Pairwise.nil
  inq_past := nofun
  halted_empty := nofun
  gateTakenAt_le := le_rfl
  holds_past := nofun
  holds_order := List.Pairwise.nil
  holds_before := fun _ => nofun

theorem Committed.inv (h : s.Inv) (hc : Committed i s t) : t.Inv := by
  cases hc with
  | held => exact h
  | drive alg filt x y z => exact h.driveCommit (pipelineAt_insertsSample alg filt x y z s) _
  | stop => exact h.stopCommit
  | badcrc => exact h.badcrcCommit
  | staleTick _ _ _ hd => exact (h.nextCheck hd).emit _
  | freshTick _ _ hd => exact h.nextCheck hd
  | shutdown => exact h.shutdownCommit
  | reset => exact resetCommit_inv s

/-! ### What the moves of the world write -/

/-- An event that arrives now is the newest of the queue (R29). -/
theorem State.Inv.arrive (h : s.Inv) (hr : s.run = .running) (e : InputEvent) (b : Bool) :
    ({ s with inq := s.inq ++ [⟨e, s.now, b⟩] } : State).Inv :=
  { h with
    inq_order := List.pairwise_append.mpr ⟨h.inq_order, List.pairwise_singleton _ _, by simpa using h.inq_past⟩
    inq_past := by simpa [or_imp, forall_and] using h.inq_past
    halted_empty := fun hh => by cases hr.symm.trans hh }

theorem State.Inv.requestReset (h : s.Inv) : ({ s with resetReq := true } : State).Inv := { h with }

/-- What lies in the past stays in the past (R24). -/
theorem State.Inv.advance (h : s.Inv) {u : Nat} (hu : s.now ≤ u) (hl : u < Config.timeLimit) :
    ({ s with now := u } : State).Inv :=
  { h with
    hist_past := fun e he => (h.hist_past e he).trans hu
    lastUpdate_le := h.lastUpdate_le.trans hu
    now_lt := hl
    inq_past := fun p hp => (h.inq_past p hp).trans hu
    gateTakenAt_le := h.gateTakenAt_le.trans hu
    holds_past := fun x hx => ⟨(h.holds_past x hx).1, (h.holds_past x hx).2.trans hu⟩ }

/-- A hold that begins now begins after every ended hold (R242). -/
theorem State.Inv.gateTake (h : s.Inv) :
    ({ s with gate := .heldByActuator, gateTakenAt := s.now } : State).Inv :=
  { h with
    gateTakenAt_le := le_rfl
    holds_before := fun _ x hx => (h.holds_past x hx).2 }

/-- The hold that ends now began after the ended holds, and becomes the newest of them (R242). -/
theorem State.Inv.endHold (h : s.Inv) (hg : s.gate = .heldByActuator) : s.endHold.Inv :=
  { h with
    holds_past := List.forall_mem_cons.mpr ⟨⟨h.gateTakenAt_le, le_rfl⟩, h.holds_past⟩
    holds_order := List.pairwise_cons.mpr ⟨h.holds_before hg, h.holds_order⟩
    holds_before := nofun }

theorem Stepped.inv (h : s.Inv) (hs : Stepped s t) : t.Inv := by
  cases hs with
  | same => exact h
  | commit _ _ _ _ hx => exact (exec_next hx).inv h
  | arrive e b hr => exact h.arrive hr e b
  | reset => exact h.requestReset
  | advance _ hu hl => exact h.advance hu hl
  | gateTake => exact h.gateTake
  | gateGive hg => exact h.endHold hg

end Sys2Proof.Machine

namespace Sys2Proof.Proofs

open Sys2Proof.Machine

/-- Settles O28: every commit and every move of the world keeps the invariant. -/
theorem stepKeepsTheInvariant : Obligations.StepKeepsTheInvariant := fun _ _ h hs =>
  (step_next hs).inv h.afterMove

/-- Settles O29: the power-on state is what a RESET leaves, and its trace is the one bracket of that RESET. -/
theorem resetMeetsTheInvariant : Obligations.ResetMeetsTheInvariant :=
  ⟨{ resetCommit_inv State.reset with }, rfl⟩

end Sys2Proof.Proofs
end

section
/-! PROOF. What each move of the world, the FRAME event and RESET answer, and what is refused: one equation for each case
of the shared operations, from which O14, O20, O23, O24, O26 and O27 follow. -/

namespace Sys2Proof.Machine

variable {s : State} {k : Result} {i : Instr} {F : Frame} {bytes : List Byte}

/-! ### The moves of the world -/

/-- A listed move is what the step makes, from the state in which it is spent (log 2). -/
theorem step_move (s : State) (m : EnvMove) (rest : List EnvMove) :
    step { s with env := m :: rest } = envMove m { s with env := rest } := rfl

theorem arrive_of_running (hr : s.run = .running) (e : InputEvent) (b : Bool) :
    arrive s e b = .next { s with inq := s.inq ++ [⟨e, s.now, b⟩] } := by
  simp [arrive, hr]

theorem arrive_of_halted (hr : s.run = .halted) (e : InputEvent) (b : Bool) : arrive s e b = .refused .halted :=
  if_pos hr

theorem packFrame_of_length (hl : bytes.length = 20) : ∃ F, packFrame bytes = .ok F := ⟨_, if_pos hl⟩

theorem packFrame_of_length_ne (hl : bytes.length ≠ 20) : packFrame bytes = .error (.partialFrame bytes.length) :=
  if_neg hl

theorem arriveFrame_of_packFrame (hp : packFrame bytes = .ok F) (b : Bool) :
    arriveFrame s bytes b = arrive s (.frame F) b := by
  rw [arriveFrame, hp]

/-- R54: other than 20 bytes are no frame. -/
theorem arriveFrame_of_length_ne (hl : bytes.length ≠ 20) (b : Bool) :
    arriveFrame s bytes b = .refused .partialFrame := by
  rw [arriveFrame, packFrame_of_length_ne hl]

theorem arriveFrame_of_halted (hl : bytes.length = 20) (hr : s.run = .halted) (b : Bool) :
    arriveFrame s bytes b = .refused .halted := by
  obtain ⟨F, hp⟩ := packFrame_of_length hl
  rw [arriveFrame_of_packFrame hp, arrive_of_halted hr]

theorem advanceTo_of_le {u : Nat} (hu : s.now ≤ u) (hl : u < Config.timeLimit) :
    advanceTo s u = .next { s with now := u } := by
  rw [advanceTo, if_neg (Nat.not_lt.mpr hu), if_neg (Nat.not_le.mpr hl)]

theorem advanceTo_of_lt {u : Nat} (hu : u < s.now) : advanceTo s u = .refused .timeDecreased := if_pos hu

theorem advanceTo_of_limit_le {u : Nat} (hu : s.now ≤ u) (hl : Config.timeLimit ≤ u) :
    advanceTo s u = .refused .timeOverflow := by
  rw [advanceTo, if_neg (Nat.not_lt.mpr hu), if_pos hl]

theorem gateTake_of_free (hg : s.gate = .free) :
    gateTake s = .next { s with gate := .heldByActuator, gateTakenAt := s.now } := if_pos hg

theorem gateTake_of_held (hg : s.gate = .heldByActuator) : gateTake s = .refused .gateProtocol := by
  simp [gateTake, hg]

theorem gateGive_of_held (hg : s.gate = .heldByActuator) : gateGive s = .next s.endHold := if_pos hg

theorem gateGive_of_free (hg : s.gate = .free) : gateGive s = .refused .gateProtocol := by
  simp [gateGive, hg]

/-! ### The three classes of a frame (R74) -/

theorem classify_badcrc (hc : crcOk F = false) : classify F = .badcrc := by simp [classify, hc]

theorem classify_stop (hc : crcOk F = true) (hd : ctlOf F ≠ 0xFF) : classify F = .stop := by
  have hdrive : driveOf F = false := beq_false_of_ne hd
  simp [classify, hc, hdrive]

theorem classify_drive (hc : crcOk F = true) (hd : ctlOf F = 0xFF) : classify F = .drive (modelOf F) := by
  have hdrive : driveOf F = true := beq_iff_eq.mpr hd
  simp [classify, hc, hdrive]

theorem execFrame_badcrc (hc : crcOk F = false) : execFrame F s = badcrcOp s := by
  rw [execFrame, classify_badcrc hc]

theorem execFrame_stop (hc : crcOk F = true) (hd : ctlOf F ≠ 0xFF) : execFrame F s = stopOp s := by
  rw [execFrame, classify_stop hc hd]

theorem execFrame_drive (hc : crcOk F = true) (hd : ctlOf F = 0xFF) :
    execFrame F s =
      driveOp (modelTable (modelOf F)).1 (modelTable (modelOf F)).2 (xOf F) (yOf F) (zOf F) s := by
  rw [execFrame, classify_drive hc hd]

/-! ### Refusals -/

theorem whenRunning_late (hr : s.run = .running) (hn : Config.timeLimit ≤ s.now) :
    whenRunning s k = .refused .timeOverflow := by
  simp [whenRunning, hr, hn]

/-- A tick whose next deadline is out of range is refused before it asks for the gate (R100). -/
theorem tickOp_late (hr : s.run = .running) (hn : s.now < Config.timeLimit) (hd : Config.timeLimit ≤ nextCheck s) :
    tickOp s = .refused .timeOverflow := by
  rw [tickOp, whenRunning_of hr hn, if_pos hd]

/-- Every class of frame asks first for the run state and the time. -/
theorem execFrame_eq_whenRunning (F : Frame) (s : State) : ∃ k, execFrame F s = whenRunning s k := by
  unfold execFrame
  cases classify F with
  | badcrc | stop | drive => exact ⟨_, rfl⟩

/-- Every instruction but RESET asks first for the run state and the time (R24, R28). -/
theorem exec_eq_whenRunning (hi : i ≠ .reset) : ∃ k, exec i s = whenRunning s k := by
  cases i with
  | reset => exact absurd rfl hi
  | frame F => exact execFrame_eq_whenRunning F s
  | stop | badcrc | tick | shutdown | driveM0 | driveM1 | driveM2 | driveM3 | driveM4 | driveM5 | driveM6 | driveM7
  | driveM8 | driveM12 | driveM13 | driveM14 | driveDflt09 | driveDflt0A | driveDflt0B | driveDflt0F | driveDflt10
  | driveDflt20 | driveDflt40 | driveDflt80 => exact ⟨_, rfl⟩

/-! ### RESET from an empty trace -/

/-- R280: what a RESET does not set is the gate, the trace, the counter of draws and the script. -/
theorem resetCommit_eq_reset (hg : s.gate = .free) (ho : s.out = []) (hd : s.draws = 0) (he : s.env = []) :
    resetCommit s = State.reset := by
  simp [resetCommit, State.emit, State.reset, bracket, hg, ho, hd, he]

end Sys2Proof.Machine

namespace Sys2Proof.Proofs

open Sys2Proof.Machine

/-- Settles O14: the step makes the listed move (`step_move`), and each clause is one case of that move. -/
theorem worldMovesResult : Obligations.WorldMovesResult := by
  intro s rest s' stepOn
  refine ⟨?frame, ?partialFrame, ?shutdown, ?shutdownHalted, ?frameHalted, ?reset, ?advance, ?back, ?overflow, ?take,
    ?takeHeld, ?give, ?giveFree⟩
  case frame =>
    intro bytes F b hp hr
    exact (arriveFrame_of_packFrame hp b).trans (arrive_of_running (s := s') hr _ b)
  case partialFrame => exact fun _ b hl => arriveFrame_of_length_ne hl b
  case shutdown => exact fun b hr => arrive_of_running (s := s') hr .shutdown b
  case shutdownHalted => exact fun b hr => arrive_of_halted (s := s') hr .shutdown b
  case frameHalted => exact fun _ b hl hr => arriveFrame_of_halted (s := s') hl hr b
  case reset => exact step_move s .reset rest
  case advance => exact fun _ hu hl => advanceTo_of_le (s := s') hu hl
  case back => exact fun _ hu => advanceTo_of_lt (s := s') hu
  case overflow => exact fun _ hu hl => advanceTo_of_limit_le (s := s') hu hl
  case take => exact fun hg => gateTake_of_free (s := s') hg
  case takeHeld => exact fun hg => gateTake_of_held (s := s') hg
  case give => exact fun hg => gateGive_of_held (s := s') hg
  case giveFree => exact fun hg => gateGive_of_free (s := s') hg

/-- Settles O20: the class of the payload selects the operation (R74), which commits from a Ready state. -/
theorem frameEventResult : Obligations.FrameEventResult := by
  rintro s F ⟨hr, hn, hg⟩
  refine ⟨?badcrc, ?stop, ?drive⟩
  case badcrc => exact fun hc => (execFrame_badcrc hc).trans (badcrcOp_of hr hn)
  case stop =>
    intro hc hd
    have hx := (execFrame_stop hc hd).trans (stopOp_of hr hn hg)
    rwa [stopCommit_eq] at hx
  case drive =>
    intro hc hd r
    have hx := (execFrame_drive hc hd).trans (driveOp_of _ _ _ _ _ hr hn hg)
    rwa [driveCommit_eq] at hx

/-- Settles O23: a RESET asks for the gate and for nothing else. -/
theorem resetResult : Obligations.ResetResult := fun _ hg => resetOp_of hg

/-- Settles O24: what a RESET does not set, the hypotheses fix. -/
theorem powerOnIsAReset : Obligations.PowerOnIsAReset := by
  intro s hg ho hd he
  exact (resetOp_of hg).trans (congrArg _ (resetCommit_eq_reset hg ho hd he))

/-- Settles O26: the guard that every instruction but RESET stands behind refuses. -/
theorem haltedBlockRefuses : Obligations.HaltedBlockRefuses := by
  intro s i hr hi
  obtain ⟨k, hk⟩ := exec_eq_whenRunning (s := s) hi
  rw [hk, whenRunning_halted hr]

/-- Settles O27: the same guard refuses a time out of range, and TICK a next deadline out of range. -/
theorem timeLimitRefuses : Obligations.TimeLimitRefuses := by
  intro s hr
  refine ⟨fun hn i hi => ?_, fun hn hd => tickOp_late hr hn hd⟩
  obtain ⟨k, hk⟩ := exec_eq_whenRunning (s := s) hi
  rw [hk, whenRunning_late hr hn]

end Sys2Proof.Proofs
end

section
/-! PROOF. The brackets of the trace (20_memory.md R58): a trace is scanned part by part, the commands of a bracket do not
touch the gate, so whatever an instruction appends is well bracketed by itself (R202, R241), from which O30 follows. -/

namespace Sys2Proof.Machine

variable {s t : State} {i : Instr}

/-! ### Scanning a trace part by part -/

theorem scanTrace_append (xs ys : List Output) (b : Bool) :
    scanTrace b (xs ++ ys) = (scanTrace b xs).bind fun b' => scanTrace b' ys := by
  induction xs generalizing b with
  | nil => rfl
  | cons o rest ih =>
    cases o with
    | status c => cases b <;> simp [scanTrace, ih]
    | act c => cases c <;> cases b <;> simp [scanTrace, ih]

theorem wellBracketed.append {xs ys : List Output} (hx : wellBracketed xs) (hy : wellBracketed ys) :
    wellBracketed (xs ++ ys) := by
  rw [wellBracketed, scanTrace_append, hx]
  exact hy

/-! ### The parts an instruction appends -/

/-- R202: a status stands outside the brackets. -/
theorem wellBracketed_status (c : Status) : wellBracketed [.status c] := rfl

/-- A command that neither takes nor gives back the gate may stand anywhere inside a bracket. -/
theorem scanTrace_commands {cmds : List ActCmd} (hc : ∀ c ∈ cmds, c ≠ .gateAcq ∧ c ≠ .gateRel) (rest : List Output) :
    scanTrace true (cmds.map .act ++ rest) = scanTrace true rest := by
  induction cmds with
  | nil => rfl
  | cons c cs ih =>
    obtain ⟨⟨hacq, hrel⟩, hcs⟩ := List.forall_mem_cons.mp hc
    rw [← ih hcs]
    cases c with
    | gateAcq => exact absurd rfl hacq
    | gateRel => exact absurd rfl hrel
    | enable | setTrans | setRot | stop | releaseHw => rfl

theorem wellBracketed_bracket {cmds : List ActCmd} (hc : ∀ c ∈ cmds, c ≠ .gateAcq ∧ c ≠ .gateRel) :
    wellBracketed (bracket cmds) :=
  scanTrace_commands hc [.act .gateRel]

theorem wellBracketed_bracket_velocity (v w : F32) : wellBracketed (bracket [.setTrans v, .setRot w]) :=
  wellBracketed_bracket (by simp)

theorem wellBracketed_bracket_stop : wellBracketed (bracket [.stop]) := wellBracketed_bracket (by simp)

theorem wellBracketed_bracket_releaseHw : wellBracketed (bracket [.releaseHw]) := wellBracketed_bracket (by simp)

theorem wellBracketed_bracket_enable : wellBracketed (bracket [.enable]) := wellBracketed_bracket (by simp)

/-! ### Every instruction and every step -/

theorem Committed.wellBracketed (h : wellBracketed s.out) (hc : Committed i s t) : wellBracketed t.out := by
  cases hc with
  | held | freshTick => exact h
  | drive => exact (h.append (wellBracketed_status _)).append (wellBracketed_bracket_velocity _ _)
  | stop => exact (h.append (wellBracketed_status _)).append wellBracketed_bracket_stop
  | badcrc => exact h.append (wellBracketed_status _)
  | staleTick => exact h.append wellBracketed_bracket_stop
  | shutdown => exact h.append (wellBracketed_bracket_stop.append wellBracketed_bracket_releaseHw)
  | reset => exact h.append wellBracketed_bracket_enable

/-- The moves of the world send nothing. -/
theorem Stepped.wellBracketed (h : wellBracketed s.out) (hs : Stepped s t) : wellBracketed t.out := by
  cases hs with
  | commit _ _ _ _ hx => exact (exec_next hx).wellBracketed h
  | same | arrive | reset | advance | gateTake | gateGive => exact h

end Sys2Proof.Machine

namespace Sys2Proof.Proofs

open Sys2Proof.Machine

/-- Settles O30: spending the head move leaves the trace, and what the step appends is well bracketed. -/
theorem stepKeepsBrackets : Obligations.StepKeepsBrackets := fun s _ h hs =>
  (step_next hs).wellBracketed (s := s.afterMove) h

end Sys2Proof.Proofs
end

section
/-! PROOF. What is due, and how long (20_memory.md R55, 45_drive_ops.md R220, 46_watchdog.md R230): the order of an arrived
event and a due tick, the operation a step commits, the row a FRAME event runs, and the time the gate may hold an
operation up (R284). O9, O10 and O12 follow. -/

namespace Sys2Proof.Machine

variable {s : State} {d : Due} {p : Pending} {rest : List Pending}

/-! ### An arrived event against a due tick -/

theorem tickDue_iff : tickDue s = true ↔ s.nextDeadline ≤ s.now := decide_eq_true_iff

theorem goesBefore_iff (p : Pending) (deadline : Nat) :
    goesBefore p deadline = true ↔ p.arrival < deadline ∨ (p.arrival = deadline ∧ p.afterTick = false) := by
  simp [goesBefore]

theorem headDue_of_arrived (hq : s.inq = p :: rest) (ha : p.arrival ≤ s.now) : headDue s = some p := by
  simp [headDue, hq, ha]

theorem headDue_arrived (h : headDue s = some p) : p.arrival ≤ s.now := by
  unfold headDue at h
  split at h
  next => cases h
  next =>
    split at h
    next ha => cases h; exact ha
    next => cases h

/-- While Running, with no RESET waiting, an arrived head is due unless a tick goes before it. -/
theorem nextDue_of_head (hr : s.run = .running) (hreq : s.resetReq = false) (hh : headDue s = some p) :
    nextDue s = if tickDue s && !goesBefore p s.nextDeadline then some (tickEvent s) else some p.due := by
  simp [nextDue, hr, hreq, hh]

theorem nextDue_event (hr : s.run = .running) (hreq : s.resetReq = false) (hh : headDue s = some p)
    (ht : tickDue s = false ∨ goesBefore p s.nextDeadline = true) : nextDue s = some p.due := by
  rw [nextDue_of_head hr hreq hh]
  rcases ht with ht | ht <;> simp [ht]

theorem nextDue_tick (hr : s.run = .running) (hreq : s.resetReq = false) (hh : headDue s = some p)
    (ht : tickDue s = true) (hb : goesBefore p s.nextDeadline = false) :
    nextDue s = some ⟨.tick, s.nextDeadline⟩ := by
  rw [nextDue_of_head hr hreq hh, ht, hb]
  rfl

/-- What is due has arrived: a RESET request counts as arriving now, a tick at its deadline (R230). -/
theorem nextDue_arrived (h : nextDue s = some d) : d.arrival ≤ s.now := by
  have tick : tickDue s = true → (tickEvent s).arrival ≤ s.now := tickDue_iff.mp
  unfold nextDue at h
  split at h
  next => cases h; exact le_rfl
  next =>
    split at h
    next => cases h
    next =>
      split at h
      next =>
        split at h
        next ht => cases h; exact tick ht
        next => cases h
      next p hh =>
        split at h
        next ht => cases h; exact tick (Bool.and_eq_true_iff.mp ht).1
        next => cases h; exact headDue_arrived hh

/-! ### The step commits what is due -/

theorem commitNext_of_due (h : nextDue s = some d) :
    commitNext s = if withinLatency s d then exec d.instr s else .refused .latencyExceeded := by
  simp only [commitNext, h]

theorem commitNext_of_none (h : nextDue s = none) : commitNext s = .next s := by
  simp only [commitNext, h]

theorem step_of_due (he : s.env = []) (h : nextDue s = some d) : step s = commitNext s := by
  simp only [step, he, runFree, h]

/-! ### FRAME runs the row of its payload -/

/-- Each drive row runs the algorithm and the filter that the model table gives its byte (R75, R200). -/
theorem exec_driveInstr (m : Byte) (rsv : BitVec 16) (x y z : F32) (s : State) :
    exec (driveInstr m rsv x y z) s = driveOp (modelTable m).1 (modelTable m).2 x y z s := by
  unfold driveInstr modelTable
  split
  case h_17 =>
    -- No row of its own: each of the four ranges of the default rows gives the same operation (R217).
    simp only [*]
    split_ifs <;> rfl
  all_goals
    simp only [*]
    rfl

theorem exec_decodeFrame (F : Frame) (s : State) : exec (decodeFrame F) s = exec (.frame F) s := by
  change _ = execFrame F s
  unfold decodeFrame execFrame
  cases classify F with
  | badcrc | stop => rfl
  | drive m => exact exec_driveInstr m ..

/-! ### The latency bound and the holds of the gate -/

theorem withinLatency_of_unbounded (hm : Config.eventLatencyMax = none) : withinLatency s d = true := by
  simp [withinLatency, hm]

/-- A bound allows itself on top of the arrival and of the time the gate held the operation up (R220 (d), R284). -/
theorem withinLatency_iff_of_bound {m : Nat} (hm : Config.eventLatencyMax = some m) :
    withinLatency s d = true ↔ s.now ≤ d.arrival + m + heldFor s d := by
  simp only [withinLatency, hm, Bool.or_eq_true, decide_eq_true_iff]
  omega

/-- A hold that ended before the arrival adds nothing. -/
theorem hold_after_eq_zero {h : Hold} {arrival : Nat} (hg : h.given ≤ arrival) : h.after arrival = 0 := by
  have := (hold_after_le h arrival).1
  omega

/-- With every hold ended before the arrival, and none going on that the operation waits for, nothing held it up. -/
theorem heldFor_eq_zero (hh : ∀ h ∈ s.holds, h.given ≤ d.arrival)
    (hg : s.gate = .free ∨ needsGate d.instr s = false) : heldFor s d = 0 := by
  have ended : ∀ l : List Hold, l ⊆ s.holds → (l.map (·.after d.arrival)).sum = 0 := by
    intro l hl
    apply List.sum_eq_zero
    intro n hn
    obtain ⟨h, hm, rfl⟩ := List.mem_map.mp hn
    exact hold_after_eq_zero (hh h (hl hm))
  cases hn : needsGate d.instr s with
  | false => rw [heldFor_of_not_gated hn, ended _ (List.filter_subset_self _)]
  | true =>
    have hfree : s.gate = .free := hg.resolve_right (by simp [hn])
    simp [heldFor_of_gated hn, ended s.holds (List.Subset.refl _), hfree]

/-- An operation that the gate holds up since its arrival is never late (R284). -/
theorem le_arrival_add_heldFor (hg : s.gate = .heldByActuator) (hn : needsGate d.instr s = true)
    (ht : s.gateTakenAt ≤ d.arrival) : s.now ≤ d.arrival + heldFor s d := by
  rw [heldFor_of_gated hn, if_pos hg, max_eq_right ht]
  omega

/-- Whether an operation needs the gate depends on the time and `lastUpdate` alone. -/
theorem needsGate_congr {s t : State} (i : Instr) (hn : t.now = s.now) (hl : t.lastUpdate = s.lastUpdate) :
    needsGate i t = needsGate i s := by
  simp only [needsGate, hn, hl]

theorem needsGate_endHold (i : Instr) : needsGate i s.endHold = needsGate i s := needsGate_congr i rfl rfl

theorem needsGate_gate (i : Instr) (g : Gate) : needsGate i { s with gate := g } = needsGate i s :=
  needsGate_congr i rfl rfl

/-- The end of a hold does not change how long it held up an operation that needs the gate. -/
theorem heldFor_endHold (hg : s.gate = .heldByActuator) (hn : needsGate d.instr s = true) :
    heldFor s.endHold d = heldFor s d := by
  rw [heldFor_of_gated hn, heldFor_of_gated ((needsGate_endHold _).trans hn)]
  simp [hg, Hold.after, Nat.add_comm]

/-- A hold adds at most its length. -/
theorem heldFor_endHold_le : heldFor s.endHold d ≤ heldFor { s with gate := .free } d + (s.now - s.gateTakenAt) := by
  have last : (Hold.mk s.gateTakenAt s.now (gateWaited s)).after d.arrival ≤ s.now - s.gateTakenAt :=
    (hold_after_le _ _).2
  cases hn : needsGate d.instr s with
  | true =>
    rw [heldFor_of_gated ((needsGate_endHold _).trans hn), heldFor_of_gated ((needsGate_gate _ _).trans hn)]
    simp only [endHold_holds, endHold_gate, List.map_cons, List.sum_cons, reduceCtorEq, if_false]
    omega
  | false =>
    rw [heldFor_of_not_gated ((needsGate_endHold _).trans hn), heldFor_of_not_gated ((needsGate_gate _ _).trans hn)]
    cases hw : gateWaited s with
    | true =>
      rw [hw] at last
      rw [endHold_holds, hw, List.filter_cons_of_pos rfl, List.map_cons, List.sum_cons, Nat.add_comm]
      exact Nat.add_le_add_left last _
    | false =>
      rw [endHold_holds, hw, List.filter_cons_of_neg Bool.false_ne_true]
      exact Nat.le_add_right _ _

end Sys2Proof.Machine

namespace Sys2Proof.Proofs

open Sys2Proof.Machine

/-- Settles O9: the frame goes before the tick, so it is what is due, and FRAME runs the row of its payload. -/
theorem stepRunsTheFrameAtTheHead : Obligations.StepRunsTheFrameAtTheHead := by
  intro s F arrival afterTick rest he hr hreq hq ha ht hl
  have hbefore : tickDue s = false ∨ goesBefore ⟨.frame F, arrival, afterTick⟩ s.nextDeadline = true :=
    ht.imp (fun h => decide_eq_false (Nat.not_le.mpr h)) fun h => (goesBefore_iff _ _).mpr (.inl h)
  have hdue : nextDue s = some ⟨.frame F, arrival⟩ := nextDue_event hr hreq (headDue_of_arrived hq ha) hbefore
  have hstep : step s = exec (.frame F) s := by
    rw [step_of_due he hdue, commitNext_of_due hdue, if_pos hl]
  exact ⟨hstep, hstep.trans (exec_decodeFrame F s).symm⟩

/-- Settles O10: the step commits what is due (`step_of_due`, `step_move`), and the clauses on the holds are the cases of
`heldFor`. -/
theorem stepRunsWhatIsDue : Obligations.StepRunsWhatIsDue := by
  refine ⟨?alone, ?commit, ?nothing, fun _ _ => nextDue_arrived, ?bound, fun _ _ => heldFor_eq_zero,
    fun _ _ => le_arrival_add_heldFor, fun _ _ hg => ⟨heldFor_endHold hg, heldFor_endHold_le⟩⟩
  case alone => exact fun _ _ he hd => (step_of_due he hd).trans (commitNext_of_due hd)
  case commit => exact fun s _ rest hd => (step_move s .commit rest).trans (commitNext_of_due hd)
  case nothing => exact fun s rest hd => (step_move s .commit rest).trans (commitNext_of_none hd)
  case bound =>
    intro s d
    split
    next hm => simp [withinLatency_of_unbounded hm]
    next hm => exact withinLatency_iff_of_bound hm

/-- Settles O12: each clause says whether the event goes before the tick (`goesBefore_iff`). -/
theorem eventsCommitInArrivalOrder : Obligations.EventsCommitInArrivalOrder := by
  intro s p rest hr hreq hq ha ht
  have hh := headDue_of_arrived hq ha
  have event (hb : p.arrival < s.nextDeadline ∨ (p.arrival = s.nextDeadline ∧ p.afterTick = false)) :
      nextDue s = some p.due := nextDue_event hr hreq hh (.inr ((goesBefore_iff _ _).mpr hb))
  have tick (hb : ¬(p.arrival < s.nextDeadline ∨ (p.arrival = s.nextDeadline ∧ p.afterTick = false))) :
      nextDue s = some ⟨.tick, s.nextDeadline⟩ :=
    nextDue_tick hr hreq hh (tickDue_iff.mpr ht) (Bool.eq_false_iff.mpr (mt (goesBefore_iff _ _).mp hb))
  refine ⟨fun h => event (.inl h), fun h => tick ?_, fun h hb => event (.inr ⟨h, hb⟩), fun h hb => tick ?_⟩
  · omega
  · simp [h, hb]

end Sys2Proof.Proofs
end

section
/-! PROOF. The frame parser and the encoder undo each other (30_encoding.md R70 to R78): first the opcode map of the drive
rows against `Instr.driveFields`, in both directions, then the frame of every row, then the bytes of a frame on the wire.
O1 to O6 and O11 follow. -/

namespace Sys2Proof

open Sys2Proof.Machine

variable {F : Frame} {i : Instr} {m : Byte} {rsv : BitVec 16} {x y z : F32}

/-! ### The opcode map of the drive rows (R75) -/

theorem one_append_toNat {k w : Nat} (hk : k ≠ 0) (lo : BitVec w) : (1#k ++ lo).toNat = 2 ^ w + lo.toNat := by
  rw [BitVec.toNat_append, ← Nat.shiftLeft_add_eq_or_of_lt lo.isLt, BitVec.toNat_ofNat,
    Nat.mod_eq_of_lt (Nat.one_lt_two_pow hk), Nat.shiftLeft_eq, Nat.one_mul]

/-- A byte whose leading one stands at bit `w`, as each default row of R75 fixes it, is that bit followed by the rest. -/
theorem one_append_extractLsb' {k w : Nat} (hk : k ≠ 0) (m : BitVec (k + w)) (hl : 2 ^ w ≤ m.toNat)
    (hu : m.toNat < 2 ^ (w + 1)) : 1#k ++ m.extractLsb' 0 w = m := by
  have hdiv : m.toNat / 2 ^ w = 1 := Nat.div_eq_of_lt_le (by omega) (by omega)
  have hsum := Nat.div_add_mod m.toNat (2 ^ w)
  apply BitVec.eq_of_toNat_eq
  rw [one_append_toNat hk, BitVec.extractLsb'_toNat, Nat.shiftRight_zero]
  rwa [hdiv, Nat.mul_one] at hsum

/-- The model bytes with no row of their own fall into four ranges. -/
theorem driveInstr_of_le (hm : 0x10 ≤ m.toNat) : driveInstr m rsv x y z =
    if m.toNat < 0x20 then .driveDflt10 (m.extractLsb' 0 4) rsv x y z
    else if m.toNat < 0x40 then .driveDflt20 (m.extractLsb' 0 5) rsv x y z
    else if m.toNat < 0x80 then .driveDflt40 (m.extractLsb' 0 6) rsv x y z
    else .driveDflt80 (m.extractLsb' 0 7) rsv x y z := by
  unfold driveInstr
  split
  case h_17 => rfl
  all_goals omega

/-- The row that the opcode map selects holds the model byte and the operands it was selected with. -/
theorem driveFields_driveInstr (m : Byte) (rsv : BitVec 16) (x y z : F32) :
    (driveInstr m rsv x y z).driveFields = some (m, rsv, x, y, z) := by
  have hm := m.isLt
  by_cases hr : 0x10 ≤ m.toNat
  · rw [driveInstr_of_le hr]
    split_ifs <;> simp only [Instr.driveFields]
    · rw [one_append_extractLsb' (k := 4) (w := 4) (by decide) m (by omega) (by omega)]
    · rw [one_append_extractLsb' (k := 3) (w := 5) (by decide) m (by omega) (by omega)]
    · rw [one_append_extractLsb' (k := 2) (w := 6) (by decide) m (by omega) (by omega)]
    · rw [one_append_extractLsb' (k := 1) (w := 7) (by decide) m (by omega) (by omega)]
  · have hb : m = BitVec.ofNat 8 m.toNat := (BitVec.ofNat_toNat 8 m).trans (BitVec.setWidth_eq m) |>.symm
    generalize m.toNat = n at hr hb
    subst hb
    interval_cases n <;> rfl

/-- The opcode map gives every drive row back from its model byte and its operands. -/
theorem driveInstr_of_driveFields (h : i.driveFields = some (m, rsv, x, y, z)) : driveInstr m rsv x y z = i := by
  cases i
  case frame | stop | badcrc | tick | shutdown | reset => cases h
  case driveDflt10 lo _ _ _ _ =>
    cases h
    have hm := one_append_toNat (k := 4) (by decide) lo
    simp (disch := omega) only [driveInstr_of_le, if_pos, BitVec.extractLsb'_append_eq_right]
  case driveDflt20 lo _ _ _ _ =>
    cases h
    have hm := one_append_toNat (k := 3) (by decide) lo
    simp (disch := omega) only [driveInstr_of_le, if_pos, if_neg, BitVec.extractLsb'_append_eq_right]
  case driveDflt40 lo _ _ _ _ =>
    cases h
    have hm := one_append_toNat (k := 2) (by decide) lo
    simp (disch := omega) only [driveInstr_of_le, if_pos, if_neg, BitVec.extractLsb'_append_eq_right]
  case driveDflt80 lo _ _ _ _ =>
    cases h
    have hm := one_append_toNat (k := 1) (by decide) lo
    simp (disch := omega) only [driveInstr_of_le, if_neg, BitVec.extractLsb'_append_eq_right]
  all_goals
    cases h
    rfl

/-! ### The rows of a frame (R74 to R76) -/

/-- A drive row is a frame row, every one is well formed, and its event word is of kind 0b00. -/
theorem driveRow_isFrameRow_wellFormed_kind (h : i.driveFields = some (m, rsv, x, y, z)) :
    i.isFrameRow = true ∧ i.wellFormed = true ∧ i.kind = 0#2 := by
  cases i
  case frame | stop | badcrc | tick | shutdown | reset => cases h
  all_goals exact ⟨rfl, rfl, rfl⟩

/-- A frame row is a drive row, STOP or BADCRC. -/
theorem frameRow_cases (h : i.isFrameRow = true) :
    (∃ m rsv x y z, i.driveFields = some (m, rsv, x, y, z)) ∨
    (∃ ctl model rsv x y z, i = .stop ctl model rsv x y z) ∨
    (∃ ctl model rsv x y z crc, i = .badcrc ctl model rsv x y z crc) := by
  cases i
  case frame | tick | shutdown | reset => cases h
  case stop => exact .inr (.inl ⟨_, _, _, _, _, _, rfl⟩)
  case badcrc => exact .inr (.inr ⟨_, _, _, _, _, _, _, rfl⟩)
  all_goals exact .inl ⟨_, _, _, _, _, rfl⟩

theorem decodeFrame_badcrc (hc : crcOk F = false) : decodeFrame F =
    .badcrc (ctlOf F) (modelOf F) (rsvOf F) (xOf F) (yOf F) (zOf F) (crcField F) := by
  simp only [decodeFrame, classify_badcrc hc]

theorem decodeFrame_stop (hc : crcOk F = true) (hd : ctlOf F ≠ 0xFF) :
    decodeFrame F = .stop (ctlOf F) (modelOf F) (rsvOf F) (xOf F) (yOf F) (zOf F) := by
  simp only [decodeFrame, classify_stop hc hd]

theorem decodeFrame_drive (hc : crcOk F = true) (hd : ctlOf F = 0xFF) :
    decodeFrame F = driveInstr (modelOf F) (rsvOf F) (xOf F) (yOf F) (zOf F) := by
  simp only [decodeFrame, classify_drive hc hd]

theorem frame_cases (F : Frame) :
    crcOk F = false ∨ (crcOk F = true ∧ ctlOf F ≠ 0xFF) ∨ (crcOk F = true ∧ ctlOf F = 0xFF) := by
  cases crcOk F
  · exact .inl rfl
  · exact .inr ((ne_or_eq _ _).imp (.intro rfl) (.intro rfl))

/-! ### Decoding an encoding -/

theorem encode_drive (h : i.driveFields = some (m, rsv, x, y, z)) : encode i = ⟨0, sealFrame 0xFF m rsv x y z⟩ := by
  obtain ⟨-, -, hk⟩ := driveRow_isFrameRow_wellFormed_kind h
  rw [encode, hk, Laws.encodeFrame_drive h]
  rfl

theorem decode_of_kind_zero (F : Frame) : decode ⟨0, F⟩ = decodeFrame F := rfl

theorem decodeFrame_sealFrame_drive (m : Byte) (rsv : BitVec 16) (x y z : F32) :
    decodeFrame (sealFrame 0xFF m rsv x y z) = driveInstr m rsv x y z := by
  rw [decodeFrame_drive (crcOk_sealFrame ..) (ctlOf_sealFrame ..)]
  simp only [modelOf_sealFrame, rsvOf_sealFrame, xOf_sealFrame, yOf_sealFrame, zOf_sealFrame]

theorem decodeFrame_sealFrame_stop {ctl : Byte} (hd : ctl ≠ 0xFF) :
    decodeFrame (sealFrame ctl m rsv x y z) = .stop ctl m rsv x y z := by
  rw [decodeFrame_stop (crcOk_sealFrame ..) (by rwa [ctlOf_sealFrame])]
  simp only [ctlOf_sealFrame, modelOf_sealFrame, rsvOf_sealFrame, xOf_sealFrame, yOf_sealFrame, zOf_sealFrame]

theorem decodeFrame_mkFrame_badcrc {ctl : Byte} {crc : U32} (hc : crcComputed (mkFrame ctl m rsv x y z crc) ≠ crc) :
    decodeFrame (mkFrame ctl m rsv x y z crc) = .badcrc ctl m rsv x y z crc := by
  have hbad : crcOk (mkFrame ctl m rsv x y z crc) = false := by
    rwa [← Bool.not_eq_true, crcOk_iff, crcField_mkFrame]
  rw [decodeFrame_badcrc hbad]
  simp only [ctlOf_mkFrame, modelOf_mkFrame, rsvOf_mkFrame, xOf_mkFrame, yOf_mkFrame, zOf_mkFrame, crcField_mkFrame]

/-- A well-formed frame row is read back from its event word. -/
theorem decode_encode (hw : i.wellFormed = true) (hf : i.isFrameRow = true) : decode (encode i) = i := by
  obtain ⟨m, rsv, x, y, z, h⟩ | ⟨ctl, m, rsv, x, y, z, rfl⟩ | ⟨ctl, m, rsv, x, y, z, crc, rfl⟩ := frameRow_cases hf
  · rw [encode_drive h, decode_of_kind_zero, decodeFrame_sealFrame_drive, driveInstr_of_driveFields h]
  · exact decodeFrame_sealFrame_stop (bne_iff_ne.mp hw)
  · exact decodeFrame_mkFrame_badcrc (bne_iff_ne.mp hw)

/-- An event row is read back from its kind, and FRAME with its payload. -/
theorem decodeEvent_encode (hf : i.isFrameRow = false) : decodeEvent (encode i) = i := by
  cases i
  case frame | tick | shutdown | reset => rfl
  all_goals cases hf

/-! ### Encoding a decoding -/

theorem decodeFrame_wellFormed (F : Frame) :
    (decodeFrame F).isFrameRow = true ∧ (decodeFrame F).wellFormed = true := by
  obtain hc | ⟨hc, hd⟩ | ⟨hc, hd⟩ := frame_cases F
  · rw [decodeFrame_badcrc hc]
    refine ⟨rfl, bne_iff_ne.mpr ?_⟩
    rw [mkFrame_fields]
    exact mt (crcOk_iff F).mpr (Bool.eq_false_iff.mp hc)
  · rw [decodeFrame_stop hc hd]
    exact ⟨rfl, bne_iff_ne.mpr hd⟩
  · rw [decodeFrame_drive hc hd]
    have hrow := driveFields_driveInstr (modelOf F) (rsvOf F) (xOf F) (yOf F) (zOf F)
    obtain ⟨hf, hw, -⟩ := driveRow_isFrameRow_wellFormed_kind hrow
    exact ⟨hf, hw⟩

theorem encode_decodeFrame (F : Frame) : encode (decodeFrame F) = ⟨0, F⟩ := by
  obtain hc | ⟨hc, hd⟩ | ⟨hc, hd⟩ := frame_cases F
  · rw [decodeFrame_badcrc hc]
    exact congrArg (EventWord.mk 0) (mkFrame_fields F)
  · rw [decodeFrame_stop hc hd]
    exact congrArg (EventWord.mk 0) (sealFrame_fields hc)
  · rw [decodeFrame_drive hc hd, encode_drive (driveFields_driveInstr ..), ← hd, sealFrame_fields hc]

/-! ### The bytes of a frame on the wire (R71) -/

/-- `packFrame`'s accumulator after one more byte: the frame's leading bytes, shifted down. -/
theorem shift_or_frameByte (F : Frame) {k : Nat} (hk : k < 20) :
    ((F >>> (160 - 8 * k)) <<< 8 ||| (frameByte F k).setWidth 160 : Frame) = F >>> (160 - 8 * (k + 1)) := by
  ext j hj
  by_cases h8 : j < 8
  · have e : 152 - 8 * k + j = 160 - 8 * (k + 1) + j := by omega
    simp [frameByte, h8, e]
  · have e : 160 - 8 * k + (j - 8) = 160 - 8 * (k + 1) + j := by omega
    simp [frameByte, h8, e]

theorem foldl_frameBytes (F : Frame) {n : Nat} (hn : n ≤ 20) :
    (frameBytes F n).foldl (fun (acc : Frame) b => (acc <<< 8) ||| b.setWidth 160) 0 = F >>> (160 - 8 * n) := by
  induction n with
  | zero => exact (BitVec.ushiftRight_eq_zero (le_refl 160)).symm
  | succ k ih =>
    rw [frameBytes, List.range_succ, List.map_append, List.foldl_append, ← frameBytes, ih (by omega)]
    exact shift_or_frameByte F hn

theorem packFrame_wireBytes (F : Frame) : packFrame (wireBytes F) = .ok F := by
  have hl : (wireBytes F).length = 20 := by simp [wireBytes, frameBytes]
  rw [packFrame, if_pos hl, wireBytes, foldl_frameBytes F le_rfl]
  exact congrArg Except.ok (BitVec.ushiftRight_zero F)

/-! ### The reserved field (R136) -/

/-- The frame operation reads the checksum's verdict, the control byte, the model byte and the axes only. -/
theorem execFrame_congr {F G : Frame} {s : State} (hF : crcOk F = true) (hG : crcOk G = true) (hctl : ctlOf F = ctlOf G)
    (hmodel : modelOf F = modelOf G) (hx : xOf F = xOf G) (hy : yOf F = yOf G) (hz : zOf F = zOf G) :
    execFrame F s = execFrame G s := by
  by_cases hd : ctlOf F = 0xFF
  · rw [execFrame_drive hF hd, execFrame_drive hG (hctl ▸ hd), hmodel, hx, hy, hz]
  · rw [execFrame_stop hF hd, execFrame_stop hG (hctl ▸ hd)]

end Sys2Proof

namespace Sys2Proof.Proofs

open Sys2Proof.Machine

/-- Settles O1: a frame row is a drive row, STOP or BADCRC, and each is read back from its frame. -/
theorem rowsRoundTrip : Obligations.RowsRoundTrip := fun _ hw => ⟨decode_encode hw, decodeEvent_encode⟩

/-- Settles O2: in each class of R74 the row keeps every field of the frame, and the wire bytes are folded back one by
one. -/
theorem everyFrameIsTheEncodingOfItsRow : Obligations.EveryFrameIsTheEncodingOfItsRow := fun F =>
  have ⟨hf, hw⟩ := decodeFrame_wellFormed F
  ⟨hf, hw, encode_decodeFrame F, packFrame_wireBytes F⟩

/-- Settles O4: a row is the one the opcode map selects as soon as it holds the frame's model byte and operands. -/
theorem modelByteSelectsItsRow : Obligations.ModelByteSelectsItsRow := by
  intro F hc hd r x y z
  have row {i : Instr} {m : Byte} (hm : modelOf F = m) (hi : i.driveFields = some (m, r, x, y, z)) :
      decodeFrame F = i := by
    rw [decodeFrame_drive hc hd, hm, driveInstr_of_driveFields hi]
  exact ⟨(row · rfl), (row · rfl), (row · rfl), (row · rfl), (row · rfl), (row · rfl), (row · rfl), (row · rfl),
    (row · rfl), (row · rfl), (row · rfl), (row · rfl), (row · rfl), (row · rfl), (row · rfl), (row · rfl),
    fun _ => (row · rfl), fun _ => (row · rfl), fun _ => (row · rfl), fun _ => (row · rfl)⟩

/-- Settles O11: the algorithm and the filter of each drive row are those of the model table (`exec_driveInstr`). -/
theorem frameOpRunsTheDecodedRow : Obligations.FrameOpRunsTheDecodedRow := fun F s => (exec_decodeFrame F s).symm

/-- Settles O3. -/
theorem classifyTakesTheFirstMatchingCase : Obligations.ClassifyTakesTheFirstMatchingCase := fun F =>
  ⟨fun hc => classify_badcrc (Bool.eq_false_iff.mpr (mt (crcOk_iff F).mp hc)),
    fun hc => classify_drive ((crcOk_iff F).mpr hc), fun hc => classify_stop ((crcOk_iff F).mpr hc)⟩

/-- Settles O5: the words are fixed, so the decoder and its CRC run on each. -/
theorem writtenOutWordsDecode : Obligations.WrittenOutWordsDecode := by
  refine ⟨rfl, rfl, rfl, rfl, ?_, ?_, ?_, ?_, ?_, ?_⟩ <;> decide +kernel

/-- Settles O6: the reserved field is not among what the frame operation reads. -/
theorem reservedBytesHaveNoEffect : Obligations.ReservedBytesHaveNoEffect :=
  fun _ _ _ hF hG hctl hmodel hx hy hz => execFrame_congr hF hG hctl hmodel hx hy hz

end Sys2Proof.Proofs
end

section
/-! PROOF. Rounding to nearest, ties to even (40_numerics.md R102, R111). The magnitude bits of the finite values are
numbered in the order of their values, so `x` rounds to the bits `k` when it lies between the midpoints below and above
`k` (`NearMag`); `roundMag` finds such bits, and bits of this kind are what `RoundsTo` asks for. -/

namespace Sys2Proof

open Machine

/-! ### The values of the magnitude bits -/

/-- The value of the magnitude bits `k`, with the exponents of binary32 continued beyond infinity. -/
noncomputable def magVal (k : ℕ) : ℝ :=
  ((k - (k / 2 ^ 23 - 1) * 2 ^ 23 : ℕ) : ℝ) * 2 ^ (((k / 2 ^ 23 - 1 : ℕ) : ℤ) - 149)

/-- The real number halfway between the values of the magnitude bits `k` and `k + 1`. -/
noncomputable def magMid (k : ℕ) : ℝ := (magVal k + magVal (k + 1)) / 2

/-- The binade of unit `2 ^ (p - 149)`, both ends included; the first one begins at 0 (subnormals, R111). -/
theorem magVal_binade {p i : ℕ} (hi : i ≤ 2 ^ 24) (hp : p = 0 ∨ 2 ^ 23 ≤ i) :
    magVal (p * 2 ^ 23 + i) = i * 2 ^ ((p : ℤ) - 149) := by
  obtain hlt | rfl := Nat.lt_or_eq_of_le hi
  · have hq : (p * 2 ^ 23 + i) / 2 ^ 23 - 1 = p := by omega
    rw [magVal, hq, Nat.add_sub_cancel_left]
  · have hq : (p * 2 ^ 23 + 2 ^ 24) / 2 ^ 23 - 1 = p + 1 := by omega
    have hr : p * 2 ^ 23 + 2 ^ 24 - (p + 1) * 2 ^ 23 = 2 ^ 23 := by omega
    have he : ((p + 1 : ℕ) : ℤ) - 149 = ((p : ℤ) - 149) + 1 := by omega
    rw [magVal, hq, hr, he, zpow_add_one₀ two_ne_zero]
    push_cast
    ring

/-- Every magnitude lies in a binade, and not at its upper end. -/
theorem exists_binade (k : ℕ) : ∃ p i, k = p * 2 ^ 23 + i ∧ i < 2 ^ 24 ∧ (p = 0 ∨ 2 ^ 23 ≤ i) :=
  ⟨k / 2 ^ 23 - 1, k - (k / 2 ^ 23 - 1) * 2 ^ 23, by omega, by omega, by omega⟩

theorem magVal_strictMono : StrictMono magVal := by
  refine strictMono_nat_of_lt_succ fun k => ?_
  obtain ⟨p, i, rfl, hi, hp⟩ := exists_binade k
  rw [add_assoc, magVal_binade hi.le hp, magVal_binade hi (by omega)]
  have : (0 : ℝ) < 2 ^ ((p : ℤ) - 149) := by positivity
  push_cast
  linarith

@[simp] theorem magVal_zero : magVal 0 = 0 := by simp [magVal]

theorem magVal_nonneg (k : ℕ) : 0 ≤ magVal k := magVal_zero ▸ magVal_strictMono.monotone k.zero_le

theorem magVal_eq_zero {k : ℕ} : magVal k = 0 ↔ k = 0 := by
  rw [← magVal_strictMono.injective.eq_iff, magVal_zero]

theorem magMid_strictMono : StrictMono magMid := by
  intro j k h
  have h1 := magVal_strictMono h
  have h2 := magVal_strictMono (Nat.succ_lt_succ h)
  unfold magMid
  linarith

theorem magVal_le_magMid (k : ℕ) : magVal k ≤ magMid k := by
  have := magVal_strictMono k.lt_succ_self
  unfold magMid
  linarith

theorem magMid_le_magVal (k : ℕ) : magMid k ≤ magVal (k + 1) := by
  have := magVal_strictMono k.lt_succ_self
  unfold magMid
  linarith

/-- A midpoint inside a binade. -/
theorem magMid_binade {p i : ℕ} (hi : i < 2 ^ 24) (hp : p = 0 ∨ 2 ^ 23 ≤ i) :
    magMid (p * 2 ^ 23 + i) = (i + 1 / 2) * 2 ^ ((p : ℤ) - 149) := by
  rw [magMid, add_assoc, magVal_binade hi.le hp, magVal_binade hi (by omega)]
  push_cast
  ring

/-- The overflow threshold is the midpoint of the greatest finite value and 2 ^ 128. -/
theorem magMid_infMag : magMid (infMag - 1) = (2 ^ 25 - 1) * 2 ^ 103 := by
  rw [show infMag - 1 = 253 * 2 ^ 23 + (2 ^ 24 - 1) from rfl, magMid_binade (by norm_num) (.inr (by norm_num))]
  norm_num

/-! ### Between two midpoints -/

/-- The real number `x` lies between the midpoints round the magnitude bits `k`, on one of them only if `k` is even. -/
structure NearMag (x : ℝ) (k : ℕ) : Prop where
  le_mid : x ≤ magMid k
  mid_le : ∀ j, k = j + 1 → magMid j ≤ x
  even : x = magMid k ∨ (∃ j, k = j + 1 ∧ x = magMid j) → Even k

theorem NearMag.mid_le_of_lt {x : ℝ} {j k : ℕ} (h : NearMag x k) (hj : j < k) : magMid j ≤ x :=
  (magMid_strictMono.monotone (Nat.le_sub_one_of_lt hj)).trans (h.mid_le (k - 1) (by omega))

/-- No value is nearer to `x`, and another one is as near only if `k` is even. -/
theorem NearMag.nearest {x : ℝ} {k : ℕ} (h : NearMag x k) (j : ℕ) :
    |magVal k - x| ≤ |magVal j - x| ∧ (j ≠ k → |magVal j - x| = |magVal k - x| → Even k) := by
  obtain hlt | rfl | hgt := lt_trichotomy j k
  · have hjk := magVal_strictMono hlt
    obtain ⟨i, rfl⟩ : ∃ i, k = i + 1 := ⟨k - 1, by omega⟩
    have hmid := h.mid_le i rfl
    have hji := magVal_strictMono.monotone (Nat.le_of_lt_succ hlt)
    have hd : magMid i = (magVal i + magVal (i + 1)) / 2 := rfl
    rw [abs_of_nonpos (by linarith : magVal j - x ≤ 0)]
    refine ⟨abs_le.mpr ⟨by linarith, by linarith⟩, fun _ he => h.even (.inr ⟨i, rfl, ?_⟩)⟩
    obtain hs | hs := abs_cases (magVal (i + 1) - x) <;> linarith
  · exact ⟨le_rfl, fun hne => absurd rfl hne⟩
  · have hkj := magVal_strictMono hgt
    have hmid := h.le_mid
    have hji := magVal_strictMono.monotone (Nat.succ_le_of_lt hgt)
    have hd : magMid k = (magVal k + magVal (k + 1)) / 2 := rfl
    rw [abs_of_nonneg (by linarith : 0 ≤ magVal j - x)]
    refine ⟨abs_le.mpr ⟨by linarith, by linarith⟩, fun _ he => h.even (.inl ?_)⟩
    obtain hs | hs := abs_cases (magVal k - x) <;> linarith

/-- Only a number below the overflow threshold is near a finite value's bits. -/
theorem NearMag.lt_infMag_iff {x : ℝ} {k : ℕ} (h : NearMag x k) : k < infMag ↔ x < (2 ^ 25 - 1) * 2 ^ 103 := by
  rw [← magMid_infMag]
  refine ⟨fun hk => ?_, fun hx => ?_⟩
  · obtain hlt | rfl := Nat.lt_or_eq_of_le (Nat.le_sub_one_of_lt hk)
    · exact h.le_mid.trans_lt (magMid_strictMono hlt)
    · exact h.le_mid.lt_of_ne fun he => absurd (h.even (.inl he)) (by decide)
  · by_contra hk
    exact absurd (h.mid_le_of_lt (j := infMag - 1) (by unfold infMag at *; omega)) hx.not_ge

theorem nearMag_zero : NearMag 0 0 where
  le_mid := magVal_zero ▸ magVal_le_magMid 0
  mid_le _ hj := nomatch hj
  even _ := Even.zero

/-! ### Rounding to an integer -/

/-- The integer `n` is nearest to `y`, and is even if another integer is as near. -/
def NearInt (y : ℝ) (n : ℕ) : Prop := |y - n| ≤ 1 / 2 ∧ (|y - n| = 1 / 2 → Even n)

/-- The integer `m` stands for the real number `z`: it is `z`, or it has 26 bits or more, the last of them 1 for an
inexact part (a sticky bit), with `z` strictly between its neighbours. -/
def Sticky (z : ℝ) (m : ℕ) : Prop := z = m ∨ (Odd m ∧ 2 ^ 25 ≤ m ∧ |z - m| < 1)

/-- What is nearest to a number that is `q` and the fraction `t / P`. -/
theorem nearInt_add_div {P t : ℝ} (hP : 0 < P) (q : ℕ) :
    (0 ≤ t → 2 * t ≤ P → (2 * t = P → Even q) → NearInt (q + t / P) q) ∧
    (t ≤ P → P ≤ 2 * t → (2 * t = P → Odd q) → NearInt (q + t / P) (q + 1)) := by
  refine ⟨fun h0 hle he => ?_, fun h1 hle he => ?_⟩
  · have habs : |q + t / P - q| = t / P := by rw [add_sub_cancel_left, abs_of_nonneg (by positivity)]
    rw [NearInt, habs, div_le_div_iff₀ hP two_pos, div_eq_div_iff hP.ne' two_ne_zero]
    exact ⟨by linarith, fun h => he (by linarith)⟩
  · have habs : |q + t / P - (q + 1 : ℕ)| = (P - t) / P := by
      rw [abs_of_nonpos, sub_div, div_self hP.ne'] <;> push_cast
      · ring
      · linarith [(div_le_one hP).mpr h1]
    rw [NearInt, habs, div_le_div_iff₀ hP two_pos, div_eq_div_iff hP.ne' two_ne_zero]
    exact ⟨by linarith, fun h => (he (by linarith)).add_one⟩

/-- Against one half, an inexact number's fraction `t / 2 ^ k` compares as the fraction `r / 2 ^ k` of its sticky
integer. -/
theorem sticky_fraction {z : ℝ} {m k : ℕ} (h : z = m ∨ (Odd m ∧ 2 ≤ k ∧ |z - m| < 1)) {t : ℝ} {r : ℕ}
    (hr : r = m % 2 ^ k) (ht : t = z - m + r) :
    0 ≤ t ∧ t ≤ 2 ^ k ∧
      (2 * t < 2 ^ k ∧ 2 * r < 2 ^ k ∨ 2 * t = 2 ^ k ∧ 2 * r = 2 ^ k ∨ 2 ^ k < 2 * t ∧ 2 ^ k < 2 * r) := by
  have hlt : r + 1 ≤ 2 ^ k := hr ▸ Nat.mod_lt m (by positivity)
  have hltR : (r : ℝ) + 1 ≤ 2 ^ k := by exact_mod_cast hlt
  obtain rfl | ⟨hodd, hk, hd⟩ := h
  · obtain rfl : t = r := by rw [ht]; ring
    refine ⟨r.cast_nonneg, by linarith, ?_⟩
    norm_cast
    omega
  · obtain ⟨hd1, hd2⟩ := abs_lt.mp hd
    have hrodd : r % 2 = 1 := by
      rw [hr, Nat.mod_mod_of_dvd m (dvd_pow_self 2 (by omega))]
      exact Nat.odd_iff.mp hodd
    have h1 : (1 : ℝ) ≤ r := by exact_mod_cast (by omega : 1 ≤ r)
    refine ⟨by linarith, by linarith, ?_⟩
    obtain ⟨j, rfl⟩ := Nat.exists_eq_add_of_le hk
    obtain hlo | hhi : 2 * r + 2 ≤ 2 ^ (2 + j) ∨ 2 ^ (2 + j) + 2 ≤ 2 * r := by rw [pow_add]; omega
    · have hR : 2 * (r : ℝ) + 2 ≤ 2 ^ (2 + j) := by exact_mod_cast hlo
      exact .inl ⟨by linarith, by omega⟩
    · have hR : (2 : ℝ) ^ (2 + j) + 2 ≤ 2 * r := by exact_mod_cast hhi
      exact .inr (.inr ⟨by linarith, by omega⟩)

/-- `roundShift` rounds the number an integer stands for, if it drops two bits or more of an inexact one. -/
theorem roundShift_nearInt {z : ℝ} {m k : ℕ} (h : z = m ∨ (Odd m ∧ 2 ≤ k ∧ |z - m| < 1)) :
    NearInt (z / 2 ^ k) (roundShift m k) := by
  have hz : z / 2 ^ k = (m / 2 ^ k : ℕ) + (z - m + (m % 2 ^ k : ℕ)) / 2 ^ k := by
    have hm : (2 : ℝ) ^ k * (m / 2 ^ k : ℕ) + (m % 2 ^ k : ℕ) = m := by exact_mod_cast Nat.div_add_mod m (2 ^ k)
    field_simp
    linarith
  obtain ⟨hdown, hup⟩ := nearInt_add_div (P := 2 ^ k) (t := z - m + (m % 2 ^ k : ℕ)) (by positivity) (m / 2 ^ k)
  obtain ⟨h0, h1, hcmp⟩ := sticky_fraction h rfl rfl
  rw [hz]
  unfold roundShift
  dsimp only
  obtain ⟨ht, hr⟩ | ⟨ht, hr⟩ | ⟨ht, hr⟩ := hcmp
  · rw [if_neg (by omega)]
    exact hdown h0 ht.le fun he => absurd he ht.ne
  · split_ifs with hc
    · exact hup h1 ht.ge fun _ => Nat.odd_iff.mpr (by omega)
    · exact hdown h0 ht.le fun _ => Nat.even_iff.mpr (by omega)
  · rw [if_pos (.inl hr)]
    exact hup h1 ht.le fun he => absurd he ht.ne'

/-! ### Rounding to binary32 -/

theorem NearInt.le_add_half {y : ℝ} {i : ℕ} (h : NearInt y i) : y ≤ i + 1 / 2 := by linarith [(abs_le.mp h.1).2]

theorem NearInt.sub_half_le {y : ℝ} {i : ℕ} (h : NearInt y i) : i - 1 / 2 ≤ y := by linarith [(abs_le.mp h.1).1]

theorem NearInt.even_of_eq {y : ℝ} {i : ℕ} (h : NearInt y i) (he : y = i + 1 / 2 ∨ y = i - 1 / 2) : Even i := by
  refine h.2 ?_
  obtain rfl | rfl := he
  · rw [add_sub_cancel_left, abs_of_pos one_half_pos]
  · rw [sub_sub_cancel_left, abs_neg, abs_of_pos one_half_pos]

/-- Rounding stays in the binade, its ends included. -/
theorem NearInt.in_binade {y : ℝ} {p i : ℕ} (h : NearInt y i) (hlt : y < 2 ^ 24) (hp : p = 0 ∨ 2 ^ 23 ≤ y) :
    i ≤ 2 ^ 24 ∧ (p = 0 ∨ 2 ^ 23 ≤ i) := by
  have h1 := h.le_add_half
  have h2 := h.sub_half_le
  refine ⟨Nat.le_of_lt_succ ?_, hp.imp_right fun h => Nat.le_of_lt_succ ?_⟩ <;> rify <;> linarith

section Binade

variable {y : ℝ} {p i : ℕ}

/-- The midpoint above; past the upper end of the binade, `i` is the even 2 ^ 24. -/
theorem le_magMid_of_nearInt (h : NearInt y i) (hi : i ≤ 2 ^ 24) (hp : p = 0 ∨ 2 ^ 23 ≤ i) (hlt : y < 2 ^ 24) :
    y * 2 ^ ((p : ℤ) - 149) ≤ magMid (p * 2 ^ 23 + i) ∧
      (y * 2 ^ ((p : ℤ) - 149) = magMid (p * 2 ^ 23 + i) → Even i) := by
  have hu : (0 : ℝ) < 2 ^ ((p : ℤ) - 149) := by positivity
  obtain hi24 | rfl := Nat.lt_or_eq_of_le hi
  · rw [magMid_binade hi24 hp]
    exact ⟨mul_le_mul_of_nonneg_right h.le_add_half hu.le,
      fun he => h.even_of_eq (.inl (mul_right_cancel₀ hu.ne' he))⟩
  · refine ⟨?_, fun _ => by decide⟩
    calc y * 2 ^ ((p : ℤ) - 149) ≤ (2 ^ 24 : ℕ) * 2 ^ ((p : ℤ) - 149) :=
          mul_le_mul_of_nonneg_right (by rw [Nat.cast_pow, Nat.cast_ofNat]; exact hlt.le) hu.le
      _ = magVal (p * 2 ^ 23 + 2 ^ 24) := (magVal_binade le_rfl hp).symm
      _ ≤ magMid (p * 2 ^ 23 + 2 ^ 24) := magVal_le_magMid _

/-- The midpoint below; past the lower end of the binade, `i` is the even 2 ^ 23. -/
theorem magMid_le_of_nearInt (h : NearInt y i) (hi : i ≤ 2 ^ 24) (hp : p = 0 ∨ 2 ^ 23 ≤ i)
    (hge : p = 0 ∨ 2 ^ 23 ≤ y) {j : ℕ} (hj : p * 2 ^ 23 + i = j + 1) :
    magMid j ≤ y * 2 ^ ((p : ℤ) - 149) ∧ (y * 2 ^ ((p : ℤ) - 149) = magMid j → Even i) := by
  have hu : (0 : ℝ) < 2 ^ ((p : ℤ) - 149) := by positivity
  by_cases hpi : p = 0 ∨ 2 ^ 23 < i
  · obtain ⟨i, rfl⟩ : ∃ i', i = i' + 1 := ⟨i - 1, by omega⟩
    have hmid : magMid j = ((i + 1 : ℕ) - 1 / 2) * 2 ^ ((p : ℤ) - 149) := by
      rw [show j = p * 2 ^ 23 + i by omega, magMid_binade hi (by omega)]; push_cast; ring
    rw [hmid]
    exact ⟨mul_le_mul_of_nonneg_right h.sub_half_le hu.le,
      fun he => h.even_of_eq (.inr (mul_right_cancel₀ hu.ne' he))⟩
  · obtain rfl : i = 2 ^ 23 := by omega
    refine ⟨?_, fun _ => by decide⟩
    calc magMid j ≤ magVal (j + 1) := magMid_le_magVal j
      _ = (2 ^ 23 : ℕ) * 2 ^ ((p : ℤ) - 149) := by rw [← hj, magVal_binade hi hp]
      _ ≤ y * 2 ^ ((p : ℤ) - 149) :=
          mul_le_mul_of_nonneg_right (by rw [Nat.cast_pow, Nat.cast_ofNat]; exact hge.resolve_left (by omega)) hu.le

/-- Rounding in the unit of the number's binade, `y` the number in that unit. -/
theorem nearMag_of_nearInt (h : NearInt y i) (hlt : y < 2 ^ 24) (hge : p = 0 ∨ 2 ^ 23 ≤ y) :
    NearMag (y * 2 ^ ((p : ℤ) - 149)) (p * 2 ^ 23 + i) := by
  obtain ⟨hi, hp⟩ := h.in_binade hlt hge
  have hpar : Even i → Even (p * 2 ^ 23 + i) := ((by decide : Even (2 ^ 23)).mul_left p).add
  refine ⟨(le_magMid_of_nearInt h hi hp hlt).1, fun j hj => (magMid_le_of_nearInt h hi hp hge hj).1, ?_⟩
  rintro (he | ⟨j, hj, he⟩)
  · exact hpar ((le_magMid_of_nearInt h hi hp hlt).2 he)
  · exact hpar ((magMid_le_of_nearInt h hi hp hge hj).2 he)

end Binade

/-! ### `roundMag` -/

/-- A sticky integer has the leading bit of the number it stands for. -/
theorem Sticky.bounds {z : ℝ} {m : ℕ} (h : Sticky z m) (hm : m ≠ 0) :
    (2 : ℝ) ^ (m.log2 : ℤ) ≤ z ∧ z < 2 ^ ((m.log2 : ℤ) + 1) := by
  have hlo := Nat.log2_self_le hm
  have hhi := Nat.lt_log2_self (n := m)
  have key : (2 ^ m.log2 : ℕ) ≤ z ∧ z < (2 ^ (m.log2 + 1) : ℕ) := by
    obtain rfl | ⟨hodd, hm25, hd⟩ := h
    · exact ⟨by exact_mod_cast hlo, by exact_mod_cast hhi⟩
    · obtain ⟨hd1, hd2⟩ := abs_lt.mp hd
      have hL : m.log2 ≠ 0 := fun h0 => by rw [h0] at hhi; omega
      have hne : m % 2 = 1 := Nat.odd_iff.mp hodd
      have hev : 2 ^ m.log2 % 2 = 0 := Nat.mod_eq_zero_of_dvd (dvd_pow_self 2 hL)
      have h1 : ((2 ^ m.log2 : ℕ) : ℝ) + 1 ≤ m := by exact_mod_cast (by omega : 2 ^ m.log2 + 1 ≤ m)
      have h2 : (m : ℝ) + 1 ≤ (2 ^ (m.log2 + 1) : ℕ) := by exact_mod_cast hhi
      exact ⟨by linarith, by linarith⟩
  obtain ⟨h1, h2⟩ := key
  push_cast at h1 h2
  exact ⟨by exact_mod_cast h1, by exact_mod_cast h2⟩

/-- An inexact number has its leading bit at place 25 or above. -/
theorem Sticky.exact_of_log2 {z : ℝ} {m : ℕ} (h : Sticky z m) : z = m ∨ (Odd m ∧ 25 ≤ m.log2 ∧ |z - m| < 1) :=
  h.imp_right fun ⟨hodd, hm, hd⟩ => ⟨hodd, (Nat.le_log2 (by omega)).mpr hm, hd⟩

/-- The exponent of the unit in which `roundMag m e` rounds. -/
def roundUnit (m : ℕ) (e : ℤ) : ℤ := max (e + (m.log2 : ℤ) - 23) (-149)

/-- The integer significand of `roundMag m e`. -/
def roundSig (m : ℕ) (e : ℤ) : ℕ :=
  if roundUnit m e ≤ e then m * 2 ^ (e - roundUnit m e).toNat else roundShift m (roundUnit m e - e).toNat

theorem roundMag_eq {m : ℕ} (hm : m ≠ 0) (e : ℤ) :
    roundMag m e = min ((roundUnit m e + 149).toNat * 2 ^ 23 + roundSig m e) infMag := by
  rw [roundMag, if_neg hm]
  rfl

/-- The significand is the number in that unit, rounded. -/
theorem roundSig_nearInt {z : ℝ} {m : ℕ} (h : Sticky z m) (e : ℤ) :
    NearInt (z * 2 ^ (e - roundUnit m e)) (roundSig m e) := by
  have hq : e + (m.log2 : ℤ) - 23 ≤ roundUnit m e := le_max_left _ _
  unfold roundSig
  split_ifs with hle
  · have hz : z = m := h.exact_of_log2.resolve_right fun ⟨_, hL, _⟩ => by omega
    have hexact : z * 2 ^ (e - roundUnit m e) = (m * 2 ^ (e - roundUnit m e).toNat : ℕ) := by
      rw [hz, Nat.cast_mul, Nat.cast_pow, Nat.cast_ofNat, ← zpow_natCast, Int.toNat_of_nonneg (by omega)]
    rw [hexact, NearInt, sub_self, abs_zero]
    exact ⟨by norm_num, by norm_num⟩
  · have hk : (2 : ℝ) ^ (e - roundUnit m e) = (2 ^ (roundUnit m e - e).toNat)⁻¹ := by
      rw [← zpow_natCast, Int.toNat_of_nonneg (by omega), ← zpow_neg, neg_sub]
    rw [hk, ← div_eq_mul_inv]
    exact roundShift_nearInt (h.exact_of_log2.imp_right fun ⟨hodd, hL, hd⟩ => ⟨hodd, by omega, hd⟩)

/-- `roundMag` gives the magnitude bits between whose midpoints the number lies, or those of infinity if it is beyond
them. -/
theorem roundMag_nearMag {z : ℝ} {m : ℕ} (h : Sticky z m) (e : ℤ) :
    ∃ k, roundMag m e = min k infMag ∧ NearMag (z * 2 ^ e) k := by
  obtain rfl | hm := eq_or_ne m 0
  · obtain rfl : z = 0 := by simpa using h.exact_of_log2.resolve_right fun ⟨hodd, _⟩ => by simp at hodd
    exact ⟨0, by simp [roundMag], by simpa using nearMag_zero⟩
  have hq1 : e + (m.log2 : ℤ) - 23 ≤ roundUnit m e := le_max_left _ _
  have hq2 : -149 ≤ roundUnit m e := le_max_right _ _
  have hq3 : roundUnit m e = -149 ∨ roundUnit m e = e + (m.log2 : ℤ) - 23 := (max_choice _ _).symm
  obtain ⟨hlo, hhi⟩ := h.bounds hm
  have hpos : (0 : ℝ) < 2 ^ (e - roundUnit m e) := by positivity
  have hp : (((roundUnit m e + 149).toNat : ℕ) : ℤ) - 149 = roundUnit m e := by omega
  have hscale : z * 2 ^ e = z * 2 ^ (e - roundUnit m e) * 2 ^ ((((roundUnit m e + 149).toNat : ℕ) : ℤ) - 149) := by
    rw [hp, mul_assoc, ← zpow_add₀ two_ne_zero, sub_add_cancel]
  refine ⟨_, roundMag_eq hm e, hscale ▸ nearMag_of_nearInt (roundSig_nearInt h e) ?_ ?_⟩
  · calc z * 2 ^ (e - roundUnit m e) < 2 ^ ((m.log2 : ℤ) + 1) * 2 ^ (e - roundUnit m e) :=
          mul_lt_mul_of_pos_right hhi hpos
      _ = 2 ^ ((m.log2 : ℤ) + 1 + (e - roundUnit m e)) := (zpow_add₀ two_ne_zero _ _).symm
      _ ≤ 2 ^ (24 : ℤ) := zpow_le_zpow_right₀ one_le_two (by omega)
      _ = 2 ^ 24 := by norm_num
  · refine hq3.imp (fun h => by omega) fun hq => ?_
    calc (2 : ℝ) ^ 23 = 2 ^ ((m.log2 : ℤ) + (e - roundUnit m e)) := by
          rw [show (m.log2 : ℤ) + (e - roundUnit m e) = 23 by omega]; norm_num
      _ = 2 ^ (m.log2 : ℤ) * 2 ^ (e - roundUnit m e) := zpow_add₀ two_ne_zero _ _
      _ ≤ z * 2 ^ (e - roundUnit m e) := mul_le_mul_of_nonneg_right hlo hpos.le

/-! ### Values, rounded -/

/-- The factor of a sign bit. -/
def signFactor (s : Bool) : ℝ := if s then -1 else 1

@[simp] theorem signFactor_false : signFactor false = 1 := rfl

@[simp] theorem signFactor_true : signFactor true = -1 := rfl

@[simp] theorem abs_signFactor (s : Bool) : |signFactor s| = 1 := by cases s <;> simp

theorem signFactor_xor (s t : Bool) : signFactor (s != t) = signFactor s * signFactor t := by
  cases s <;> cases t <;> simp

/-- The significand and the unit of a value, read from its magnitude bits. -/
theorem fSig_mul_fUnit (a : F32) : (fSig a : ℝ) * 2 ^ fUnit a = magVal (fMag a) := by
  have hu : fUnit a = ((fMag a / 2 ^ 23 - 1 : ℕ) : ℤ) - 149 := by rw [fUnit, fExpo_eq_mag]; omega
  have hs : fSig a = fMag a - (fMag a / 2 ^ 23 - 1) * 2 ^ 23 := by
    rw [fSig, fExpo_eq_mag, fFrac_eq_mag]
    split <;> omega
  rw [magVal, hu, hs]

theorem f32Value_eq_sig (a : F32) : (f32Value a : ℝ) = signFactor (fSign a) * (fSig a * 2 ^ fUnit a) := by
  rw [f32Value]
  cases fSign a <;> simp

theorem f32Value_eq (a : F32) : (f32Value a : ℝ) = signFactor (fSign a) * magVal (fMag a) := by
  rw [f32Value_eq_sig, fSig_mul_fUnit]

theorem abs_f32Value (a : F32) : |(f32Value a : ℝ)| = magVal (fMag a) := by
  rw [f32Value_eq, abs_mul, abs_signFactor, one_mul, abs_of_nonneg (magVal_nonneg _)]

theorem f32Value_eq_zero {a : F32} : f32Value a = 0 ↔ isZero a = true := by
  rw [isZero_iff, ← magVal_eq_zero, ← abs_f32Value, abs_eq_zero, Rat.cast_eq_zero]

/-- `r` has the sign `s` and the magnitude of the number `x`, which has that sign, rounded. -/
def Rounded (x : ℝ) (s : Bool) (r : F32) : Prop :=
  x = signFactor s * |x| ∧ ∃ k, r = fPack s (min k infMag) ∧ NearMag |x| k

/-- Seen from a number of sign `s`, a value of the other sign is as far as zero or farther. -/
theorem abs_sub_signFactor (s t : Bool) (k : ℕ) {x : ℝ} (hx : 0 ≤ x) :
    (s = t ∧ |signFactor t * magVal k - signFactor s * x| = |magVal k - x|) ∨
    (s ≠ t ∧ |signFactor t * magVal k - signFactor s * x| = |magVal 0 - x| + magVal k) := by
  obtain rfl | hne := eq_or_ne s t
  · exact .inl ⟨rfl, by rw [← mul_sub, abs_mul, abs_signFactor, one_mul]⟩
  · have hs : signFactor s = -signFactor t := by cases s <;> cases t <;> simp at hne ⊢
    refine .inr ⟨hne, ?_⟩
    rw [hs, neg_mul, sub_neg_eq_add, ← mul_add, abs_mul, abs_signFactor, one_mul, magVal_zero, zero_sub, abs_neg,
      abs_of_nonneg hx, abs_of_nonneg (add_nonneg (magVal_nonneg k) hx), add_comm]

section Nearest

variable {x : ℝ} {s : Bool} {k : ℕ}

/-- `NearMag.nearest`, for values of either sign. -/
theorem NearMag.nearest_value (h : NearMag |x| k) (hx : x = signFactor s * |x|) (c : F32) :
    |signFactor s * magVal k - x| ≤ |f32Value c - x| ∧
    ((f32Value c : ℝ) ≠ signFactor s * magVal k → |f32Value c - x| = |signFactor s * magVal k - x| → Even k) := by
  have hs : |signFactor s * magVal k - x| = |magVal k - (|x|)| := by
    obtain ⟨_, he⟩ | ⟨hne, _⟩ := abs_sub_signFactor s s k (abs_nonneg x)
    · rw [← hx] at he
      exact he
    · exact absurd rfl hne
  have hc := abs_sub_signFactor s (fSign c) (fMag c) (abs_nonneg x)
  rw [← hx, ← f32Value_eq] at hc
  rw [hs]
  obtain ⟨rfl, he⟩ | ⟨-, he⟩ := hc
  · rw [he]
    refine ⟨(h.nearest _).1, fun hne => (h.nearest _).2 fun hk => hne ?_⟩
    rw [f32Value_eq, hk]
  · have hnn := magVal_nonneg (fMag c)
    have h0 := h.nearest 0
    rw [he]
    refine ⟨by linarith [h0.1], fun _ heq => ?_⟩
    by_cases hk : k = 0
    · exact hk ▸ Even.zero
    · exact h0.2 (Ne.symm hk) (by linarith [h0.1])

/-- Lying between two midpoints is rounding to nearest, ties to even (R102). -/
theorem Rounded.roundsTo {r : F32} (h : Rounded x s r) : RoundsTo x r := by
  obtain ⟨hx, k, rfl, hk⟩ := h
  unfold RoundsTo
  rw [← hk.lt_infMag_iff, ← not_lt, ← hk.lt_infMag_iff]
  by_cases hlt : k < infMag
  · have hmag : fMag (fPack s k) = k := by rw [fMag_fPack]; unfold infMag at hlt; omega
    have hval : (f32Value (fPack s k) : ℝ) = signFactor s * magVal k := by rw [f32Value_eq, hmag, fSign_fPack]
    rw [min_eq_left hlt.le]
    refine .inl ⟨hlt, (isFinite_iff _).mpr (by rwa [hmag]), fun c _ => ?_, fun c _ hne he => ?_⟩
    · rw [hval]
      exact (hk.nearest_value hx c).1
    · rw [hval] at he
      rw [hmag]
      refine Nat.even_iff.mp ((hk.nearest_value hx c).2 (fun h => hne ?_) he)
      exact_mod_cast h.trans hval.symm
  · have hneg : fSign (fPack s (min k infMag)) = true ↔ x < 0 := by
      have hpos : 0 < |x| := lt_of_lt_of_le (by norm_num) (not_lt.mp (hk.lt_infMag_iff.not.mp hlt))
      rw [fSign_fPack, hx]
      cases s <;> simp [abs_pos.mp hpos]
    refine .inr ⟨hlt, ?_, hneg⟩
    rw [min_eq_right (not_lt.mp hlt), isInf_iff, fMag_fPack]
    rfl

end Nearest

/-- `fRound` rounds the number that its integer stands for. -/
theorem fRound_rounded {z : ℝ} {m : ℕ} (h : Sticky z m) (hz : 0 ≤ z) (s : Bool) (e : ℤ) :
    Rounded (signFactor s * z * 2 ^ e) s (fRound s m e) := by
  obtain ⟨k, hk, hnear⟩ := roundMag_nearMag h e
  have habs : |signFactor s * z * 2 ^ e| = z * 2 ^ e := by
    rw [mul_assoc, abs_mul, abs_signFactor, one_mul, abs_of_nonneg (by positivity)]
  exact ⟨by rw [habs, mul_assoc], k, by rw [fRound, hk], habs ▸ hnear⟩

@[simp] theorem fSign_fRound (s : Bool) (m : ℕ) (e : ℤ) : fSign (fRound s m e) = s := fSign_fPack _ _

end Sys2Proof

namespace Sys2Proof.Proofs

open Sys2Proof.Machine

/-- Settles O43: the integer significand stands for itself. -/
theorem roundingIsToNearestEven : Obligations.RoundingIsToNearestEven := fun sign m e _ =>
  ⟨(fRound_rounded (.inl rfl) m.cast_nonneg sign e).roundsTo, fSign_fRound sign m e⟩

end Sys2Proof.Proofs
end

section
/-! PROOF. The arithmetic primitives case by case (40_numerics.md R103, R104): the classes of binary32 values exclude
each other, and each primitive has one equation for each case of its operands. -/

namespace Sys2Proof

open Machine

variable {nan a b : F32}

/-! ### The classes of values -/

theorem isNaN_of_isFinite (h : isFinite a = true) : isNaN a = false := by
  rw [Bool.eq_false_iff, Ne, isNaN_iff]
  exact ((isFinite_iff a).mp h).not_gt

theorem isInf_of_isFinite (h : isFinite a = true) : isInf a = false := by
  rw [Bool.eq_false_iff, Ne, isInf_iff]
  exact ((isFinite_iff a).mp h).ne

theorem isNaN_of_isInf (h : isInf a = true) : isNaN a = false := by
  rw [Bool.eq_false_iff, Ne, isNaN_iff]
  exact ((isInf_iff a).mp h).not_gt

theorem isFinite_of_isInf (h : isInf a = true) : isFinite a = false := by
  rw [Bool.eq_false_iff, Ne, isFinite_iff]
  exact ((isInf_iff a).mp h).not_lt

theorem isFinite_of_isZero (h : isZero a = true) : isFinite a = true := by
  rw [isFinite_iff, (isZero_iff a).mp h]
  decide

theorem isZero_of_isInf (h : isInf a = true) : isZero a = false := by
  rw [Bool.eq_false_iff, Ne, isZero_iff, (isInf_iff a).mp h]
  decide

theorem isZero_of_isNaN (h : isNaN a = true) : isZero a = false := by
  rw [isNaN_iff] at h
  rw [Bool.eq_false_iff, Ne, isZero_iff]
  omega

/-- A value that is no NaN is finite or infinite. -/
theorem isInf_or_isFinite (h : isNaN a = false) : isInf a = true ∨ isFinite a = true := by
  rw [Bool.eq_false_iff, Ne, isNaN_iff] at h
  rw [isInf_iff, isFinite_iff]
  omega

@[simp] theorem isZero_fPack_zero (s : Bool) : isZero (fPack s 0) = true := by simp [isZero_iff]

@[simp] theorem isInf_fPack_infMag (s : Bool) : isInf (fPack s infMag) = true := by
  rw [isInf_iff, fMag_fPack]
  rfl

theorem eq_fPack_of_isZero (h : isZero a = true) : a = fPack (fSign a) 0 := by
  rw [← (isZero_iff a).mp h, fPack_sign_mag]

theorem eq_fPack_of_isInf (h : isInf a = true) : a = fPack (fSign a) infMag := by
  rw [← (isInf_iff a).mp h, fPack_sign_mag]

@[simp] theorem isInf_fneg (a : F32) : isInf (fneg a) = isInf a := by
  rw [Bool.eq_iff_iff, isInf_iff, isInf_iff, fMag_fneg]

@[simp] theorem isZero_fabs (a : F32) : isZero (fabs a) = isZero a := by
  rw [Bool.eq_iff_iff, isZero_iff, isZero_iff, fMag_fabs]

/-- Rounding gives a finite value or an infinity, never a NaN. -/
@[simp] theorem isNaN_fRound (s : Bool) (m : ℕ) (e : ℤ) : isNaN (fRound s m e) = false := by
  have hle : roundMag m e ≤ infMag := by
    unfold roundMag
    split
    · exact Nat.zero_le _
    · exact min_le_right _ _
  rw [Bool.eq_false_iff, Ne, isNaN_iff, fRound, fMag_fPack]
  exact ((Nat.mod_le _ _).trans hle).not_gt

/-! ### `fadd` -/

theorem faddWith_nan (h : isNaN a = true ∨ isNaN b = true) : faddWith nan a b = nan := by
  rw [faddWith, if_pos (by simpa using h)]

theorem faddWith_finite (ha : isFinite a = true) (hb : isFinite b = true) : faddWith nan a b = addFinite a b := by
  simp [faddWith, isNaN_of_isFinite, isInf_of_isFinite, ha, hb]

theorem faddWith_inf_left (ha : isInf a = true) (hb : isNaN b = false) (hs : isInf b = true → fSign a = fSign b) :
    faddWith nan a b = a := by
  simpa [faddWith, isNaN_of_isInf ha, ha, hb] using fun hi hne => absurd (hs hi) hne

theorem faddWith_inf_right (ha : isNaN a = false) (hb : isInf b = true) (hs : isInf a = true → fSign a = fSign b) :
    faddWith nan a b = b := by
  by_cases hia : isInf a = true
  · rw [faddWith_inf_left hia (isNaN_of_isInf hb) fun _ => hs hia, eq_fPack_of_isInf hia, eq_fPack_of_isInf hb, hs hia]
  · simp [faddWith, isNaN_of_isInf hb, ha, hia, hb]

theorem faddWith_inf_opposite (ha : isInf a = true) (hb : isInf b = true) (hs : fSign a ≠ fSign b) :
    faddWith nan a b = nan := by
  simp [faddWith, isNaN_of_isInf, ha, hb, hs]

/-! ### `fmul` -/

theorem fmulWith_nan (h : isNaN a = true ∨ isNaN b = true) : fmulWith nan a b = nan := by
  simp only [fmulWith, Bool.or_eq_true, if_pos h]

theorem fmulWith_finite (ha : isFinite a = true) (hb : isFinite b = true) :
    fmulWith nan a b = fRound (fSign a != fSign b) (fSig a * fSig b) (fUnit a + fUnit b) := by
  simp [fmulWith, isNaN_of_isFinite, isInf_of_isFinite, ha, hb]

theorem fmulWith_inf (ha : isNaN a = false) (hb : isNaN b = false) (h : isInf a = true ∨ isInf b = true)
    (hza : isZero a = false) (hzb : isZero b = false) : fmulWith nan a b = fPack (fSign a != fSign b) infMag := by
  simp [fmulWith, ha, hb, h, hza, hzb]

theorem fmulWith_zero_inf (h : isZero a = true ∧ isInf b = true ∨ isInf a = true ∧ isZero b = true) :
    fmulWith nan a b = nan := by
  obtain ⟨hz, hi⟩ | ⟨hi, hz⟩ := h <;>
    simp [fmulWith, isNaN_of_isInf hi, isNaN_of_isFinite (isFinite_of_isZero hz), hz, hi]

/-! ### `fdiv` -/

theorem fdivWith_nan (h : isNaN a = true ∨ isNaN b = true) : fdivWith nan a b = nan := by
  simp only [fdivWith, Bool.or_eq_true, if_pos h]

theorem fdivWith_inf_finite (ha : isInf a = true) (hb : isFinite b = true) :
    fdivWith nan a b = fPack (fSign a != fSign b) infMag := by
  simp [fdivWith, isNaN_of_isInf, isNaN_of_isFinite, isInf_of_isFinite, ha, hb]

theorem fdivWith_inf_inf (ha : isInf a = true) (hb : isInf b = true) : fdivWith nan a b = nan := by
  simp [fdivWith, isNaN_of_isInf, ha, hb]

theorem fdivWith_finite_inf (ha : isFinite a = true) (hb : isInf b = true) :
    fdivWith nan a b = fPack (fSign a != fSign b) 0 := by
  simp [fdivWith, isNaN_of_isInf, isNaN_of_isFinite, isInf_of_isFinite, ha, hb]

theorem fdivWith_zero_zero (ha : isZero a = true) (hb : isZero b = true) : fdivWith nan a b = nan := by
  simp [fdivWith, isNaN_of_isFinite, isInf_of_isFinite, isFinite_of_isZero, ha, hb]

theorem fdivWith_finite_zero (ha : isFinite a = true) (hza : isZero a = false) (hb : isZero b = true) :
    fdivWith nan a b = fPack (fSign a != fSign b) infMag := by
  simp [fdivWith, isNaN_of_isFinite, isInf_of_isFinite, isFinite_of_isZero, ha, hza, hb]

/-- The quotient of the significands, with a sticky last bit. -/
def quotSig (a b : F32) : ℕ :=
  2 * (fSig a * 2 ^ 50 / fSig b) + if fSig a * 2 ^ 50 % fSig b = 0 then 0 else 1

theorem fdivWith_finite (ha : isFinite a = true) (hb : isFinite b = true) (hzb : isZero b = false) :
    fdivWith nan a b = fRound (fSign a != fSign b) (quotSig a b) (fUnit a - fUnit b - 51) := by
  simp [fdivWith, quotSig, isNaN_of_isFinite, isInf_of_isFinite, ha, hb, hzb]

/-! ### `fsqrt` -/

theorem fsqrtWith_nan (h : isNaN a = true) : fsqrtWith nan a = nan := if_pos h

theorem fsqrtWith_zero (h : isZero a = true) : fsqrtWith nan a = a := by
  simp [fsqrtWith, isNaN_of_isFinite, isFinite_of_isZero, h]

theorem fsqrtWith_negative (hz : isZero a = false) (hs : fSign a = true) : fsqrtWith nan a = nan := by
  simp [fsqrtWith, hz, hs]

theorem fsqrtWith_inf (h : isInf a = true) (hs : fSign a = false) : fsqrtWith nan a = a := by
  simp [fsqrtWith, isNaN_of_isInf, isZero_of_isInf, h, hs]

/-- By how many bits the root's radicand is scaled: its unit's exponent becomes even. -/
def rootShift (a : F32) : ℕ := if fUnit a % 2 = 0 then 54 else 55

/-- The integer radicand of a root. -/
def rootRadicand (a : F32) : ℕ := fSig a * 2 ^ rootShift a

/-- The root of the radicand, with a sticky last bit. -/
def rootSig (a : F32) : ℕ :=
  2 * isqrt (rootRadicand a) + if isqrt (rootRadicand a) * isqrt (rootRadicand a) = rootRadicand a then 0 else 1

theorem fsqrtWith_finite (h : isFinite a = true) (hz : isZero a = false) (hs : fSign a = false) :
    fsqrtWith nan a = fRound false (rootSig a) ((fUnit a - rootShift a) / 2 - 1) := by
  simp [fsqrtWith, rootSig, rootRadicand, rootShift, isNaN_of_isFinite, isInf_of_isFinite, h, hz, hs]

/-- The root of an operand with sign 0 that is no NaN is no NaN. -/
theorem isNaN_fsqrtWith (hn : isNaN a = false) (hs : fSign a = false) : isNaN (fsqrtWith nan a) = false := by
  by_cases hz : isZero a = true
  · rw [fsqrtWith_zero hz, hn]
  obtain hi | hf := isInf_or_isFinite hn
  · rw [fsqrtWith_inf hi hs, hn]
  · rw [fsqrtWith_finite hf (by simpa using hz) hs, isNaN_fRound]

end Sys2Proof

namespace Sys2Proof.Proofs

open Sys2Proof.Machine

/-- Settles O46. -/
theorem invalidOperationsDrawANaN : Obligations.InvalidOperationsDrawANaN := by
  intro a b n
  simp only [runDraw_fadd, runDraw_fsub, runDraw_fmul, runDraw_fdiv, runDraw_fsqrt]
  refine ⟨fun h => ⟨faddWith_nan h, faddWith_nan (by simpa using h), fmulWith_nan h, fdivWith_nan h⟩, fsqrtWith_nan,
    faddWith_inf_opposite, fun ha hb hs => faddWith_inf_opposite ha (by simpa using hb) (by simp [hs]),
    fun ha hb => fmulWith_zero_inf (.inl ⟨ha, hb⟩), fun ha hb => fmulWith_zero_inf (.inr ⟨ha, hb⟩), fdivWith_zero_zero,
    fdivWith_inf_inf, fsqrtWith_negative⟩

end Sys2Proof.Proofs
end

section
/-! PROOF. The sign operations, the comparisons, the protected primitives and the drawn NaNs (40_numerics.md R105 to
R109): each is a statement about the sign and the magnitude bits of its operands. -/

namespace Sys2Proof

open Machine

variable {a b : F32}

/-! ### NaN patterns (R109) -/

/-- A NaN pattern is made from itself. -/
theorem anyNaN_of_isNaN (h : isNaN a = true) : anyNaN a = a := by
  have hm := fMag_lt a
  have hn := (isNaN_iff a).mp h
  have hf := fFrac_eq_mag a
  unfold infMag at hn
  refine f32_ext (fSign_fPack _ _) ?_
  rw [anyNaN, if_neg (by omega), fMag_fPack]
  unfold infMag
  omega

/-! ### The sign bit (R105) -/

theorem fSign_eq_msb (a : F32) : fSign a = a.msb := (BitVec.msb_eq_decide a).symm

theorem fneg_eq_xor (a : F32) : fneg a = a ^^^ 0x80000000#32 := by
  refine f32_ext ?_ ?_
  · rw [fSign_fneg, fSign_eq_msb, fSign_eq_msb, BitVec.msb_xor]
    exact (Bool.xor_true _).symm
  · rw [fMag_fneg, fMag, fMag, BitVec.toNat_xor, Nat.xor_mod_two_pow]
    exact (Nat.xor_zero _).symm

theorem fabs_eq_and (a : F32) : fabs a = a &&& 0x7FFFFFFF#32 := by
  refine f32_ext ?_ ?_
  · rw [fSign_fabs, fSign_eq_msb, BitVec.msb_and]
    exact (Bool.and_false _).symm
  · have hlt : a.toNat % 2 ^ 31 < 2 ^ 31 := Nat.mod_lt _ (by norm_num)
    have hand : (a &&& 0x7FFFFFFF#32).toNat = a.toNat % 2 ^ 31 := Nat.and_two_pow_sub_one_eq_mod a.toNat 31
    rw [fMag_fabs, fMag, fMag, hand, Nat.mod_eq_of_lt hlt]

/-! ### Comparisons (R108) -/

/-- The value at a place of the order of the reals (`orderKey`). -/
noncomputable def keyVal (z : ℤ) : ℝ := if z < 0 then -magVal z.natAbs else magVal z.natAbs

theorem keyVal_strictMono : StrictMono keyVal := by
  intro y z h
  have hy := magVal_nonneg y.natAbs
  have hz := magVal_nonneg z.natAbs
  unfold keyVal
  split_ifs with hy0 hz0 hz0
  · exact neg_lt_neg (magVal_strictMono (by omega))
  · have : magVal 0 < magVal y.natAbs := magVal_strictMono (by omega)
    rw [magVal_zero] at this
    linarith
  · omega
  · exact magVal_strictMono (by omega)

theorem natAbs_orderKey (a : F32) : (orderKey a).natAbs = fMag a := by
  unfold orderKey
  split <;> omega

/-- The order of the places is the order of the values. -/
theorem keyVal_orderKey (a : F32) : keyVal (orderKey a) = f32Value a := by
  rw [f32Value_eq, keyVal, natAbs_orderKey, orderKey]
  cases fSign a
  · rw [if_neg (by simp), signFactor_false, one_mul]
  · rw [signFactor_true, neg_one_mul, if_pos rfl]
    split_ifs with h
    · rfl
    · rw [show fMag a = 0 by omega, magVal_zero, neg_zero]

theorem orderKey_lt_iff : orderKey a < orderKey b ↔ f32Value a < f32Value b := by
  rw [← keyVal_strictMono.lt_iff_lt, keyVal_orderKey, keyVal_orderKey, Rat.cast_lt]

theorem orderKey_le_iff : orderKey a ≤ orderKey b ↔ f32Value a ≤ f32Value b := by
  rw [← keyVal_strictMono.le_iff_le, keyVal_orderKey, keyVal_orderKey, Rat.cast_le]

theorem orderKey_eq_iff : orderKey a = orderKey b ↔ f32Value a = f32Value b := by
  rw [le_antisymm_iff, le_antisymm_iff, orderKey_le_iff, orderKey_le_iff]

/-- R108: any comparison with a NaN operand is false. -/
theorem ordered_of_isNaN (h : isNaN a = true ∨ isNaN b = true) : ordered a b = false := by
  unfold ordered
  obtain h | h := h <;> simp [h]

theorem ordered_of_not_isNaN (ha : isNaN a = false) (hb : isNaN b = false) : ordered a b = true := by
  simp [ordered, ha, hb]

theorem flt_iff (ha : isNaN a = false) (hb : isNaN b = false) : flt a b = true ↔ orderKey a < orderKey b := by
  rw [flt, ordered_of_not_isNaN ha hb, Bool.true_and, decide_eq_true_iff]

theorem fge_iff (ha : isNaN a = false) (hb : isNaN b = false) : fge a b = true ↔ orderKey b ≤ orderKey a := by
  rw [fge, ordered_of_not_isNaN ha hb, Bool.true_and, decide_eq_true_iff]

theorem feq_iff (ha : isNaN a = false) (hb : isNaN b = false) : feq a b = true ↔ orderKey a = orderKey b := by
  rw [feq, ordered_of_not_isNaN ha hb, Bool.true_and, beq_iff_eq]

/-- A comparison that holds has no NaN operand. -/
theorem not_isNaN_of_flt (h : flt a b = true) : isNaN a = false ∧ isNaN b = false := by
  rw [flt, ordered, Bool.and_eq_true, Bool.and_eq_true, Bool.not_eq_true', Bool.not_eq_true'] at h
  exact h.1

theorem fSign_of_orderKey_ne_zero (h : orderKey a ≠ 0) : fSign a = decide (orderKey a < 0) := by
  unfold orderKey at h ⊢
  cases hs : fSign a
  · simp
  · rw [hs, if_pos rfl] at h
    simp only [if_true]
    exact (decide_eq_true (by omega)).symm

/-- A place other than that of ±0 is the place of one value. -/
theorem eq_of_orderKey_eq (h : orderKey a = orderKey b) (h0 : orderKey b ≠ 0) : a = b := by
  refine f32_ext ?_ ?_
  · rw [fSign_of_orderKey_ne_zero h0, fSign_of_orderKey_ne_zero (h ▸ h0), h]
  · rw [← natAbs_orderKey, h, natAbs_orderKey]

/-- The infinities are at the ends of the order. -/
theorem orderKey_bounds (h : isNaN a = false) : -(infMag : ℤ) ≤ orderKey a ∧ orderKey a ≤ infMag := by
  rw [Bool.eq_false_iff, Ne, isNaN_iff] at h
  unfold orderKey
  split <;> omega

theorem flt_inf_iff (ha : isNaN a = false) : flt a 0x7F800000 = true ↔ a ≠ 0x7F800000#32 := by
  have hkey : orderKey 0x7F800000 = infMag := by decide
  rw [flt_iff ha (by decide), hkey, (orderKey_bounds ha).2.lt_iff_ne, Ne, Ne, not_iff_not]
  exact ⟨fun h => eq_of_orderKey_eq (h.trans hkey.symm) (by decide), fun h => h ▸ hkey⟩

theorem flt_negInf_iff (ha : isNaN a = false) : flt 0xFF800000 a = true ↔ a ≠ 0xFF800000#32 := by
  have hkey : orderKey 0xFF800000 = -(infMag : ℤ) := by decide
  rw [flt_iff (by decide) ha, hkey, (orderKey_bounds ha).1.lt_iff_ne', Ne, Ne, not_iff_not]
  exact ⟨fun h => eq_of_orderKey_eq (h.trans hkey.symm) (by decide), fun h => h ▸ hkey⟩

/-! ### Protected primitives (R106, R107) -/

/-- ±0 are the two values with magnitude bits 0. -/
theorem isZero_iff_eq : isZero a = true ↔ a = 0x00000000#32 ∨ a = 0x80000000#32 := by
  refine ⟨fun h => ?_, ?_⟩
  · rw [eq_fPack_of_isZero h]
    cases fSign a
    · exact .inl rfl
    · exact .inr rfl
  · rintro (rfl | rfl) <;> decide

/-- Equality with zero is being a zero, for a NaN too. -/
theorem feq_zero (b : F32) : feq b Config.zero = isZero b := by
  cases hn : isNaN b
  · have hkey : orderKey Config.zero = 0 := rfl
    rw [Bool.eq_iff_iff, feq_iff hn (by decide), isZero_iff, hkey, orderKey]
    split <;> omega
  · rw [feq, ordered_of_isNaN (.inl hn), Bool.false_and, isZero_of_isNaN hn]

theorem safediv_zero (h : isZero b = true) (a : F32) : safediv a b = pure Config.safedivSentinel := by
  rw [safediv, feq_zero, if_pos h]

theorem safediv_of_not_isZero (h : isZero b = false) (a : F32) : safediv a b = fdiv a b := by
  rw [safediv, feq_zero, h]
  rfl

end Sys2Proof

namespace Sys2Proof.Proofs

open Sys2Proof.Machine

/-- Settles O47. -/
theorem everyNaNCanBeDrawn : Obligations.EveryNaNCanBeDrawn := fun a =>
  ⟨fun h => ⟨a, (anyNaN_of_isNaN h).symm⟩, by rintro ⟨u, rfl⟩; exact isNaN_anyNaN u⟩

/-- Settles O48. -/
theorem signOperationsTouchOneBit : Obligations.SignOperationsTouchOneBit := fun a => ⟨fneg_eq_xor a, fabs_eq_and a⟩

/-- Settles O49: the places that the comparisons compare are in the order of the values. -/
theorem comparisonsAreOrdered : Obligations.ComparisonsAreOrdered := by
  intro a b
  refine ⟨fun h => ?nan, fun ha hb => ?finite, fun ha => ⟨flt_inf_iff ha, flt_negInf_iff ha⟩, fun ha hb => ?agree⟩
  case nan => simp [feq, fge, flt, ordered_of_isNaN h]
  case finite =>
    have ha := isNaN_of_isFinite ha
    have hb := isNaN_of_isFinite hb
    exact ⟨(feq_iff ha hb).trans orderKey_eq_iff, (fge_iff ha hb).trans orderKey_le_iff,
      (flt_iff ha hb).trans orderKey_lt_iff⟩
  case agree =>
    rw [← Bool.not_eq_true, ← Bool.not_eq_true, fge_iff ha hb, feq_iff ha hb, flt_iff ha hb, flt_iff hb ha]
    omega

/-- Settles O50. -/
theorem protectedPrimitives : Obligations.ProtectedPrimitives := by
  intro a b n
  refine ⟨rfl, fun ha => ?_, ?_, fun hb => ?_, fun h1 h2 => ?_, fun hb => ?_⟩
  · rw [runDraw_psqrt]
    exact isNaN_fsqrtWith (by simpa using ha) (fSign_fabs a)
  · rw [runDraw_psqrt]
    exact fsqrtWith_zero (nan := nanAt n) (a := fabs 0x80000000) (by decide)
  · rw [safediv_zero (isZero_iff_eq.mpr hb)]
    rfl
  · rw [safediv_of_not_isZero]
    exact Bool.eq_false_iff.mpr fun h => (isZero_iff_eq.mp h).elim h1 h2
  · rw [safediv_of_not_isZero (isZero_of_isNaN hb), runDraw_fdiv, fdivWith_nan (.inr hb)]
    exact isNaN_nanAt n

end Sys2Proof.Proofs
end

section
/-! PROOF. The named properties of FN_ATAN2, FN_SIN, FN_COS and FN_POW (40_numerics.md R110): each follows from what
confining does to any raw value, one lemma for each way of confining. -/

namespace Sys2Proof

open Machine

variable {a x y : F32}

/-! ### Confined values -/

theorem fMag_confineAbs_le (bound r : F32) : fMag (confineAbs bound r) ≤ fMag bound := by
  unfold confineAbs
  split
  · assumption
  · exact le_rfl

/-- A value confined to (0, +∞] is one of its bit patterns. -/
theorem confinePos_bounds (r : F32) : 0 < (confinePos r).toNat ∧ (confinePos r).toNat ≤ infMag := by
  unfold confinePos
  split
  · next h => exact ⟨Nat.pos_of_ne_zero fun h0 => h.1 (BitVec.eq_of_toNat_eq h0), h.2⟩
  · decide

theorem flt_zero_of_bounds (h0 : 0 < a.toNat) (h1 : a.toNat ≤ infMag) : flt Config.zero a = true := by
  have hmag : fMag a = a.toNat := Nat.mod_eq_of_lt (h1.trans_lt (by decide))
  have hsign : fSign a = false := decide_eq_false (Nat.not_le.mpr (h1.trans_lt (by decide)))
  have hn : isNaN a = false := by
    rw [Bool.eq_false_iff, Ne, isNaN_iff, hmag]
    exact h1.not_gt
  have hkey : orderKey Config.zero = 0 := rfl
  rw [flt_iff (by decide) hn, hkey, orderKey, hsign, hmag]
  exact Int.natCast_pos.mpr h0

/-- A positive value has sign 0 and is no zero. -/
theorem of_flt_zero (h : flt Config.zero a = true) : isNaN a = false ∧ fSign a = false ∧ isZero a = false := by
  have hn := (not_isNaN_of_flt h).2
  have hkey : orderKey Config.zero = 0 := rfl
  rw [flt_iff (by decide) hn, hkey, orderKey] at h
  refine ⟨hn, ?_, ?_⟩
  · by_contra hs
    rw [Bool.not_eq_false] at hs
    rw [if_pos hs] at h
    omega
  · rw [Bool.eq_false_iff, Ne, isZero_iff]
    split at h <;> omega

/-! ### FN_ATAN2 -/

/-- `ATAN2_ODD`: the value for y with sign 0, with the sign of y put back. -/
theorem fnAtan2_eq (y x : F32) :
    fnAtan2 y x = if fSign y then fneg (atan2Pos (fabs y) x) else atan2Pos (fabs y) x := by
  unfold fnAtan2
  split
  · next hs => rw [show fneg y = fabs y from f32_ext (by simp [hs]) (by simp)]
  · next hs => rw [show fabs y = y from f32_ext (by simp [hs]) (by simp)]

theorem fMag_fnAtan2 (y x : F32) : fMag (fnAtan2 y x) = fMag (atan2Pos (fabs y) x) := by
  rw [fnAtan2_eq]
  split
  · exact fMag_fneg _
  · rfl

theorem isNaN_fnAtan2 (y x : F32) : isNaN (fnAtan2 y x) = isNaN (atan2Pos (fabs y) x) := by
  rw [fnAtan2_eq]
  split
  · exact isNaN_fneg _
  · rfl

/-- Where `ATAN2_RANGE` fixes the value for y with sign 0, the value for any y has the sign of y. -/
theorem fnAtan2_of_atan2Pos {m : ℕ} (h : atan2Pos (fabs y) x = fPack false m) : fnAtan2 y x = fPack (fSign y) m := by
  rw [fnAtan2_eq, h]
  split
  · next hs => exact f32_ext (by simp [hs]) (by simp)
  · next hs => exact f32_ext (by simp [hs]) (by simp)

theorem fnAtan2_fneg (y x : F32) : fnAtan2 (fneg y) x = fneg (fnAtan2 y x) := by
  have hab : fabs (fneg y) = fabs y := f32_ext (by simp) (by simp)
  rw [fnAtan2_eq, fnAtan2_eq, hab, fSign_fneg]
  cases fSign y <;> simp

theorem atan2Pos_nan (h : isNaN y = true ∨ isNaN x = true) : isNaN (atan2Pos y x) = true := by
  rw [atan2Pos, if_pos (by simpa using h)]
  exact isNaN_anyNaN _

theorem atan2Pos_zero_left (hy : isZero y = true) (hx : isNaN x = false) :
    atan2Pos y x = if fSign x then Config.pi32 else Config.zero := by
  simp [atan2Pos, isNaN_of_isFinite (isFinite_of_isZero hy), hx, hy]

theorem atan2Pos_zero_right (hy : isNaN y = false) (hy0 : isZero y = false) (hx : isZero x = true) :
    atan2Pos y x = Config.halfPi32 := by
  simp [atan2Pos, isNaN_of_isFinite (isFinite_of_isZero hx), hy, hy0, hx]

theorem atan2Pos_of_not_isZero (hy : isNaN y = false) (hx : isNaN x = false) (hy0 : isZero y = false)
    (hx0 : isZero x = false) :
    atan2Pos y x = if fSign x then confineAbs Config.pi32 (Config.atan2Raw y x)
      else confineAbs Config.halfPi32 (Config.atan2Raw y x) := by
  simp [atan2Pos, hy, hx, hy0, hx0]

theorem fMag_atan2Pos_le (hy : isNaN y = false) (hx : isNaN x = false) : fMag (atan2Pos y x) ≤ fMag Config.pi32 := by
  cases hy0 : isZero y
  · cases hx0 : isZero x
    · rw [atan2Pos_of_not_isZero hy hx hy0 hx0]
      split
      · exact fMag_confineAbs_le _ _
      · exact (fMag_confineAbs_le _ _).trans (by decide)
    · rw [atan2Pos_zero_right hy hy0 hx0]
      decide
  · rw [atan2Pos_zero_left hy0 hx]
    split <;> decide

/-! ### FN_SIN, FN_COS -/

theorem fnSin_fnCos_zero (h : isZero a = true) : fnSin a = a ∧ fnCos a = Config.one := by
  simp [fnSin, fnCos, isNaN_of_isFinite, isInf_of_isFinite, isFinite_of_isZero, h]

theorem fnSin_fnCos_nan (h : isNaN a = true ∨ isInf a = true) : isNaN (fnSin a) = true ∧ isNaN (fnCos a) = true := by
  simp [fnSin, fnCos, h, confineNaN]

theorem fMag_fnSin_fnCos_le (h : isFinite a = true) :
    fMag (fnSin a) ≤ fMag Config.one ∧ fMag (fnCos a) ≤ fMag Config.one := by
  cases hz : isZero a
  · simp [fnSin, fnCos, isNaN_of_isFinite, isInf_of_isFinite, h, hz, fMag_confineAbs_le]
  · obtain ⟨hsin, hcos⟩ := fnSin_fnCos_zero hz
    rw [hsin, hcos, (isZero_iff a).mp hz]
    exact ⟨Nat.zero_le _, le_rfl⟩

/-! ### FN_POW -/

theorem fnPow_zero {b : F32} (hb : flt b Config.zero = true) (hodd : isOddInteger b = false) :
    fnPow Config.zero b = 0x7F800000 := by
  have hn : isNaN Config.zero = false := by decide
  rw [fnPow, if_neg (by simp [hn]), if_pos (by simp [hb, hodd])]

theorem isNaN_fnPow {b : F32} (ha : isNaN a = true) (hb : feq b Config.zero = false) : isNaN (fnPow a b) = true := by
  rw [fnPow, if_pos (by simp [ha, hb])]
  exact isNaN_anyNaN _

theorem fnPow_inf {b : F32} (ha : a = 0x7F800000) (hb : flt b Config.zero = true) : fnPow a b = Config.zero := by
  have hn : isNaN a = false := by rw [ha]; decide
  have hz : (a == Config.zero) = false := by rw [ha]; decide
  rw [fnPow, if_neg (by simp [hn]), if_neg (by simp [hz]), if_pos (by simp [hb, ha])]

theorem fnPow_positive {b : F32} (ha : flt Config.zero a = true) (hf : isFinite a = true)
    (hb : flt b Config.zero = true) : fnPow a b = confinePos (Config.powRaw a b) := by
  obtain ⟨hn, -, hz⟩ := of_flt_zero ha
  have h0 : a ≠ Config.zero := by rintro rfl; exact absurd hz (by decide)
  have hinf : a ≠ 0x7F800000 := by rintro rfl; exact absurd hf (by decide)
  rw [fnPow, if_neg (by simp [hn]), if_neg (by rw [beq_false_of_ne h0]; simp),
    if_neg (by rw [beq_false_of_ne hinf]; simp), if_pos (by simp [ha, hb])]

end Sys2Proof

namespace Sys2Proof.Proofs

open Sys2Proof.Machine

/-- Settles O51: each clause is one of the cases of `atan2Pos`, with the sign of y put back. -/
theorem atan2HasItsNamedProperties : Obligations.Atan2HasItsNamedProperties := by
  intro y x
  refine ⟨fun hy hx => ?range, fun hy hx hs => ?axis, fun hy hx hs => ?negAxis, fun hy0 hy hx => ?vertical,
    fun hy0 hy hx => ?halfPlane, fun h => ?nan, fnAtan2_fneg y x⟩
  case range =>
    rw [fMag_fnAtan2]
    exact fMag_atan2Pos_le (by simpa using hy) hx
  case axis =>
    have hv : atan2Pos (fabs y) x = fPack false 0 := by
      rw [atan2Pos_zero_left (by simpa using hy) hx, hs]
      rfl
    rw [fnAtan2_of_atan2Pos hv, ← eq_fPack_of_isZero hy]
  case negAxis =>
    refine fnAtan2_of_atan2Pos ?_
    rw [atan2Pos_zero_left (by simpa using hy) hx, hs]
    rfl
  case vertical =>
    refine fnAtan2_of_atan2Pos ?_
    rw [atan2Pos_zero_right (by simpa using hy) (by simpa using hy0) hx]
    rfl
  case halfPlane =>
    obtain ⟨hn, hs, hx0⟩ := of_flt_zero hx
    rw [fMag_fnAtan2, atan2Pos_of_not_isZero (by simpa using hy) hn (by simpa using hy0) hx0, hs]
    exact fMag_confineAbs_le _ _
  case nan =>
    rw [isNaN_fnAtan2]
    exact atan2Pos_nan (by simpa using h)

/-- Settles O52. -/
theorem sinCosHaveTheirNamedProperties : Obligations.SinCosHaveTheirNamedProperties := fun _ =>
  ⟨fnSin_fnCos_zero, fMag_fnSin_fnCos_le, fnSin_fnCos_nan⟩

/-- Settles O53. -/
theorem powHasItsNamedProperties : Obligations.PowHasItsNamedProperties := by
  refine fun a b => ⟨fnPow_zero, isNaN_fnPow, fnPow_inf rfl, fun ha hf hb => ?_⟩
  obtain ⟨h0, h1⟩ := confinePos_bounds (Config.powRaw a b)
  rw [fnPow_positive ha hf hb]
  exact flt_zero_of_bounds h0 h1

end Sys2Proof.Proofs
end

section
/-! PROOF. The arithmetic of finite operands is the exact one rounded once (40_numerics.md R102 to R104). Each primitive
hands `fRound` an integer that stands for the exact result: the result itself for sums and products, its integer part
with a sticky bit for quotients and roots. -/

namespace Sys2Proof

open Machine

variable {nan a b : F32}

theorem fSig_lt (a : F32) : fSig a < 2 ^ 24 := by
  unfold fSig fFrac
  split <;> omega

theorem fSig_eq_zero : fSig a = 0 ↔ isZero a = true := by
  rw [isZero_iff, fSig, fExpo_eq_mag, fFrac_eq_mag]
  split <;> omega

/-! ### Sums -/

theorem scaled_mul_zpow {e : ℤ} (he : e ≤ fUnit a) : (scaled a e : ℝ) * 2 ^ e = f32Value a := by
  have hm : ((fSig a * 2 ^ (fUnit a - e).toNat : ℕ) : ℝ) * 2 ^ e = fSig a * 2 ^ fUnit a := by
    rw [Nat.cast_mul, Nat.cast_pow, Nat.cast_ofNat, ← zpow_natCast, Int.toNat_of_nonneg (by omega), mul_assoc,
      ← zpow_add₀ two_ne_zero, sub_add_cancel]
  rw [f32Value_eq_sig, ← hm, scaled]
  cases fSign a
  · simp
  · simp

/-- The exact sum as an integer, in the lesser of the units of the operands. -/
def sumSig (a b : F32) : ℤ := scaled a (min (fUnit a) (fUnit b)) + scaled b (min (fUnit a) (fUnit b))

theorem sumSig_mul_zpow (a b : F32) :
    (sumSig a b : ℝ) * 2 ^ min (fUnit a) (fUnit b) = f32Value a + f32Value b := by
  rw [sumSig, Int.cast_add, add_mul, scaled_mul_zpow (min_le_left _ _), scaled_mul_zpow (min_le_right _ _)]

theorem sumSig_eq_zero : sumSig a b = 0 ↔ f32Value a + f32Value b = 0 := by
  have hu : (2 : ℝ) ^ min (fUnit a) (fUnit b) ≠ 0 := by positivity
  have hsum := sumSig_mul_zpow a b
  rw [← Int.cast_eq_zero (α := ℝ), ← Rat.cast_eq_zero (α := ℝ), Rat.cast_add, ← hsum, mul_eq_zero, or_iff_left hu]

/-- R103: the sign of an exact zero sum. -/
theorem addFinite_zero (h : f32Value a + f32Value b = 0) : addFinite a b = fPack (fSign a && fSign b) 0 :=
  if_pos (sumSig_eq_zero.mpr h)

theorem signFactor_mul_natAbs (v : ℤ) : signFactor (decide (v < 0)) * (v.natAbs : ℝ) = v := by
  rw [Nat.cast_natAbs]
  by_cases hv : v < 0
  · rw [decide_eq_true hv, abs_of_neg hv]
    simp
  · rw [decide_eq_false hv, abs_of_nonneg (not_lt.mp hv)]
    simp

theorem addFinite_of_ne_zero (h : f32Value a + f32Value b ≠ 0) :
    addFinite a b = fRound (decide (sumSig a b < 0)) (sumSig a b).natAbs (min (fUnit a) (fUnit b)) :=
  if_neg (sumSig_eq_zero.not.mpr h)

theorem addFinite_rounded (h : f32Value a + f32Value b ≠ 0) :
    Rounded (f32Value a + f32Value b) (decide (sumSig a b < 0)) (addFinite a b) := by
  rw [addFinite_of_ne_zero h, ← sumSig_mul_zpow, ← signFactor_mul_natAbs (sumSig a b)]
  exact fRound_rounded (.inl rfl) (Nat.cast_nonneg _) _ _

/-! ### Products -/

theorem fmulWith_rounded (ha : isFinite a = true) (hb : isFinite b = true) :
    Rounded (f32Value a * f32Value b) (fSign a != fSign b) (fmulWith nan a b) := by
  have hval : (f32Value a * f32Value b : ℝ) =
      signFactor (fSign a != fSign b) * (fSig a * fSig b : ℕ) * 2 ^ (fUnit a + fUnit b) := by
    rw [f32Value_eq_sig, f32Value_eq_sig, signFactor_xor, zpow_add₀ two_ne_zero]
    push_cast
    ring
  rw [fmulWith_finite ha hb, hval]
  exact fRound_rounded (.inl rfl) (Nat.cast_nonneg _) _ _

/-! ### Integer parts with a sticky bit -/

/-- The integer part of a number, of 25 bits or more if it is not the number, with a sticky bit below it. -/
theorem sticky_floor {x : ℝ} {t : ℕ} {p : Prop} [Decidable p] (hle : t ≤ x) (hlt : x < t + 1) (hp : p ↔ x = t)
    (hbits : ¬p → 2 ^ 24 ≤ t) : Sticky (2 * x) (2 * t + if p then 0 else 1) := by
  split_ifs with h
  · left
    rw [hp.mp h]
    push_cast
    ring
  · have hx : (t : ℝ) < x := hle.lt_of_ne fun he => h (hp.mpr he.symm)
    refine .inr ⟨odd_two_mul_add_one t, by have := hbits h; omega, ?_⟩
    push_cast
    exact abs_lt.mpr ⟨by linarith, by linarith⟩

/-! ### Quotients -/

/-- The exact quotient of the significands, scaled as `fdivWith` scales it. -/
theorem quotSig_sticky (hzb : isZero b = false) :
    Sticky (2 * ((fSig a * 2 ^ 50 : ℕ) / (fSig b : ℝ))) (quotSig a b) := by
  have hb0 : fSig b ≠ 0 := fun h => by rw [fSig_eq_zero.mp h] at hzb; cases hzb
  have hb : (0 : ℝ) < fSig b := by exact_mod_cast Nat.pos_of_ne_zero hb0
  refine sticky_floor Nat.cast_div_le (Nat.lt_floor_add_one _ |>.trans_eq ?_) ?_ fun hne => ?_
  · rw [Nat.floor_div_natCast, Nat.floor_natCast]
  · rw [← Nat.dvd_iff_mod_eq_zero, div_eq_iff hb.ne']
    refine ⟨fun h => by exact_mod_cast (Nat.div_mul_cancel h).symm, fun h => ?_⟩
    exact ⟨_, (by exact_mod_cast h : fSig a * 2 ^ 50 = _ * fSig b).trans (Nat.mul_comm _ _)⟩
  · have ha0 : 1 ≤ fSig a := Nat.one_le_iff_ne_zero.mpr fun h => hne (by rw [h, Nat.zero_mul, Nat.zero_mod])
    have hlt := fSig_lt b
    rw [Nat.le_div_iff_mul_le (Nat.pos_of_ne_zero hb0)]
    omega

theorem div_signFactor (x : ℝ) (s : Bool) : x / signFactor s = x * signFactor s := by
  cases s <;> simp [div_neg]

theorem fdivWith_rounded (ha : isFinite a = true) (hb : isFinite b = true) (hzb : isZero b = false) :
    Rounded (f32Value a / f32Value b) (fSign a != fSign b) (fdivWith nan a b) := by
  have hval : (f32Value a / f32Value b : ℝ) = signFactor (fSign a != fSign b) *
      (2 * ((fSig a * 2 ^ 50 : ℕ) / (fSig b : ℝ))) * 2 ^ (fUnit a - fUnit b - 51) := by
    rw [f32Value_eq_sig, f32Value_eq_sig, mul_div_mul_comm, div_signFactor, ← signFactor_xor, mul_assoc,
      zpow_sub₀ two_ne_zero, zpow_sub₀ two_ne_zero]
    congr 1
    field_simp
    norm_num
  rw [fdivWith_finite ha hb hzb, hval]
  exact fRound_rounded (quotSig_sticky hzb) (by positivity) _ _

/-! ### Roots -/

theorem isqrtBits_spec {n k acc : ℕ} (hle : acc * acc ≤ n) (hlt : n < (acc + 2 ^ k) * (acc + 2 ^ k)) :
    isqrtBits n k acc * isqrtBits n k acc ≤ n ∧ n < (isqrtBits n k acc + 1) * (isqrtBits n k acc + 1) := by
  induction k generalizing acc with
  | zero => exact ⟨hle, by simpa [isqrtBits] using hlt⟩
  | succ k ih =>
    rw [isqrtBits]
    split_ifs with ht
    · exact ih ht (by rwa [add_assoc, ← two_mul, ← pow_succ'])
    · exact ih hle (not_le.mp ht)

theorem isqrt_eq_sqrt {n : ℕ} (hn : n < 2 ^ 80) : isqrt n = n.sqrt := by
  obtain ⟨h1, h2⟩ := isqrtBits_spec (n := n) (k := 40) (acc := 0) (by simp) (by simpa using hn)
  exact Nat.eq_sqrt.mpr ⟨h1, h2⟩

theorem rootShift_even (a : F32) : ∃ h : ℤ, fUnit a = rootShift a + 2 * h := by
  refine ⟨(fUnit a - rootShift a) / 2, ?_⟩
  unfold rootShift
  split <;> omega

theorem rootRadicand_bounds (hz : isZero a = false) : 2 ^ 54 ≤ rootRadicand a ∧ rootRadicand a < 2 ^ 80 := by
  have h0 : 1 ≤ fSig a := Nat.one_le_iff_ne_zero.mpr fun h => by rw [fSig_eq_zero.mp h] at hz; cases hz
  have hlt := fSig_lt a
  unfold rootRadicand rootShift
  split <;> omega

/-- The exact root of the radicand, scaled as `fsqrtWith` scales it. -/
theorem rootSig_sticky (hz : isZero a = false) : Sticky (2 * √(rootRadicand a : ℝ)) (rootSig a) := by
  obtain ⟨hlo, hhi⟩ := rootRadicand_bounds hz
  unfold rootSig
  rw [isqrt_eq_sqrt hhi]
  refine sticky_floor Real.nat_sqrt_le_real_sqrt Real.real_sqrt_lt_nat_sqrt_succ ?_ fun _ => ?_
  · rw [Real.sqrt_eq_iff_mul_self_eq (Nat.cast_nonneg _) (Nat.cast_nonneg _), eq_comm]
    norm_cast
  · exact Nat.le_sqrt.mpr (by omega)

theorem fsqrtWith_rounded (ha : isFinite a = true) (hz : isZero a = false) (hs : fSign a = false) :
    Rounded √(f32Value a : ℝ) false (fsqrtWith nan a) := by
  obtain ⟨h, hh⟩ := rootShift_even a
  have hval : √(f32Value a : ℝ) =
      signFactor false * (2 * √(rootRadicand a : ℝ)) * 2 ^ ((fUnit a - rootShift a) / 2 - 1) := by
    have hrad : (f32Value a : ℝ) = rootRadicand a * (2 ^ h) ^ 2 := by
      rw [f32Value_eq_sig, hs, hh, rootRadicand, zpow_add₀ two_ne_zero, zpow_mul', zpow_natCast, zpow_ofNat,
        signFactor_false]
      push_cast
      ring
    rw [hrad, Real.sqrt_mul (Nat.cast_nonneg _), Real.sqrt_sq (by positivity), signFactor_false,
      show (fUnit a - rootShift a) / 2 = h by omega, zpow_sub_one₀ two_ne_zero]
    ring
  rw [fsqrtWith_finite ha hz hs, hval]
  exact fRound_rounded (rootSig_sticky hz) (by positivity) _ _

end Sys2Proof

namespace Sys2Proof.Proofs

open Sys2Proof.Machine

/-- Settles O44. -/
theorem sumsAndProductsAreRoundedOnce : Obligations.SumsAndProductsAreRoundedOnce := by
  refine ⟨fun nan a b ha hb => ⟨fun hne => ?sum, fun h0 => ?zeroSum, ?product, ?sign⟩,
    fun nan a b ha hb => ⟨fun h => ?infSum, fun hz => ?infProduct⟩, fun _ _ _ => rfl⟩
  case sum =>
    rw [faddWith_finite ha hb, Rat.cast_add]
    exact (addFinite_rounded hne).roundsTo
  case zeroSum => rw [faddWith_finite ha hb, addFinite_zero h0]
  case product =>
    rw [Rat.cast_mul]
    exact (fmulWith_rounded ha hb).roundsTo
  case sign => rw [fmulWith_finite ha hb, fSign_fRound]
  case infSum =>
    have hs : isInf b = true → fSign a = fSign b := fun hi =>
      h.resolve_left fun hf => by rw [isInf_of_isFinite hf] at hi; cases hi
    exact ⟨faddWith_inf_left ha hb hs, faddWith_inf_right hb ha fun hi => (hs hi).symm⟩
  case infProduct =>
    have hza := isZero_of_isInf ha
    have hna := isNaN_of_isInf ha
    refine ⟨fmulWith_inf hna hb (.inl ha) hza hz, ?_⟩
    rw [bne_comm]
    exact fmulWith_inf hb hna (.inr ha) hz hza

/-- Settles O45. -/
theorem quotientsAndRootsAreRoundedOnce : Obligations.QuotientsAndRootsAreRoundedOnce := by
  refine ⟨fun nan a b ha hb hzb => ⟨?quotient, ?sign⟩,
    fun nan a ha hz hs => ⟨(fsqrtWith_rounded ha hz hs).roundsTo, ?rootSign⟩,
    fun nan a b => ⟨fdivWith_finite_zero, fdivWith_inf_finite, fdivWith_finite_inf⟩,
    fun nan => ⟨fsqrtWith_zero (by decide), fsqrtWith_zero (by decide), fsqrtWith_inf (by decide) (by decide)⟩⟩
  case quotient =>
    rw [Rat.cast_div]
    exact (fdivWith_rounded ha hb hzb).roundsTo
  case sign => rw [fdivWith_finite ha hb hzb, fSign_fRound]
  case rootSign => rw [fsqrtWith_finite ha hz hs, fSign_fRound]

end Sys2Proof.Proofs
end

section
/-! PROOF. Degenerate samples (42_history.md R151) and NaNs in the velocity transform (44_steering.md R195). The length
of a sample without a NaN is the root of a sum of squares; the normalised axes follow from that sum being an infinity
or a zero. -/

namespace Sys2Proof

open Machine

variable {nan nan' a b x y z : F32}

/-! ### NaN operands -/

theorem isNaN_faddWith (hn : isNaN nan = true) (h : isNaN a = true ∨ isNaN b = true) :
    isNaN (faddWith nan a b) = true := by rwa [faddWith_nan h]

theorem isNaN_fmulWith (hn : isNaN nan = true) (h : isNaN a = true ∨ isNaN b = true) :
    isNaN (fmulWith nan a b) = true := by rwa [fmulWith_nan h]

theorem isNaN_fdivWith (hn : isNaN nan = true) (h : isNaN a = true ∨ isNaN b = true) :
    isNaN (fdivWith nan a b) = true := by rwa [fdivWith_nan h]

/-! ### What a rounded number is, by its size -/

theorem Rounded.isInf_of_le {r : ℝ} {s : Bool} (h : Rounded r s a) (hr : (2 ^ 25 - 1) * 2 ^ 103 ≤ |r|) :
    isInf a = true := by
  obtain ⟨hlt, -⟩ | ⟨-, hi, -⟩ := h.roundsTo
  · exact absurd hr hlt.not_ge
  · exact hi

/-- Half the least subnormal, a tie, rounds to zero. -/
theorem Rounded.isZero_of_le {r : ℝ} {s : Bool} (h : Rounded r s a) (hr : |r| ≤ 2 ^ (-150 : ℤ)) : isZero a = true := by
  obtain ⟨-, k, rfl, hk⟩ := h
  have hmid : magMid 0 = 2 ^ (-150 : ℤ) := by
    have := magMid_binade (p := 0) (i := 0) (by norm_num) (.inl rfl)
    rw [zero_mul, add_zero] at this
    rw [this]
    norm_num
  obtain rfl : k = 0 := by
    by_contra h0
    have hle := (hk.mid_le (k - 1) (by omega)).trans (hr.trans_eq hmid.symm)
    obtain rfl : k = 1 := by
      have := magMid_strictMono.le_iff_le.mp hle
      omega
    have heq : |r| = magMid 0 := (hr.trans_eq hmid.symm).antisymm (hk.mid_le 0 rfl)
    exact absurd (hk.even (.inr ⟨0, rfl, heq⟩)) (by decide)
  rw [Nat.zero_min, isZero_fPack_zero]

/-- Rounding does not pass below a finite value. -/
theorem f32Value_le_of_roundsTo {r : ℝ} (h : RoundsTo r a) (ha : isFinite a = true) (hb : isFinite b = true)
    (hle : (f32Value b : ℝ) ≤ r) : f32Value b ≤ f32Value a := by
  obtain ⟨-, -, hnear, -⟩ | ⟨-, hi, -⟩ := h
  · by_contra hlt
    have hltR : (f32Value a : ℝ) < f32Value b := by exact_mod_cast not_le.mp hlt
    have hd := hnear b hb
    rw [abs_of_neg (by linarith), abs_of_nonpos (by linarith)] at hd
    linarith
  · rw [isFinite_of_isInf hi] at ha
    cases ha

/-! ### Squares and their sums -/

/-- A value with sign 0 that is no NaN, as squares and their sums are. -/
def NonNeg (a : F32) : Prop := isNaN a = false ∧ fSign a = false

theorem NonNeg.value_nonneg (h : NonNeg a) : 0 ≤ f32Value a := by
  have hv : (0 : ℝ) ≤ f32Value a := by
    rw [f32Value_eq, h.2, signFactor_false, one_mul]
    exact magVal_nonneg _
  exact_mod_cast hv

theorem fmulWith_self_inf (h : isInf x = true) : fmulWith nan x x = fPack false infMag := by
  have hn := isNaN_of_isInf h
  have hz := isZero_of_isInf h
  rw [fmulWith_inf hn hn (.inl h) hz hz, bne_self_eq_false]

theorem nonNeg_inf : NonNeg (fPack false infMag) := ⟨isNaN_of_isInf (isInf_fPack_infMag _), fSign_fPack _ _⟩

theorem nonNeg_square (h : isNaN x = false) : NonNeg (fmulWith nan x x) := by
  obtain hi | hf := isInf_or_isFinite h
  · rw [fmulWith_self_inf hi]
    exact nonNeg_inf
  · rw [fmulWith_finite hf hf]
    exact ⟨isNaN_fRound _ _ _, by simp⟩

/-- No square of a value that is no NaN draws one. -/
theorem fmulWith_self_congr (h : isNaN x = false) : fmulWith nan x x = fmulWith nan' x x := by
  obtain hi | hf := isInf_or_isFinite h
  · rw [fmulWith_self_inf hi, fmulWith_self_inf hi]
  · rw [fmulWith_finite hf hf, fmulWith_finite hf hf]

theorem NonNeg.inf_or_finite (ha : NonNeg a) (hb : NonNeg b) :
    (isInf a = true ∨ isInf b = true) ∨ isFinite a = true ∧ isFinite b = true := by
  have h1 := isInf_or_isFinite ha.1
  have h2 := isInf_or_isFinite hb.1
  tauto

theorem NonNeg.add_inf (ha : NonNeg a) (hb : NonNeg b) (h : isInf a = true ∨ isInf b = true) :
    faddWith nan a b = fPack false infMag := by
  have hs : fSign a = fSign b := ha.2.trans hb.2.symm
  obtain h | h := h
  · rw [faddWith_inf_left h hb.1 fun _ => hs, eq_fPack_of_isInf h, ha.2]
  · rw [faddWith_inf_right ha.1 h fun _ => hs, eq_fPack_of_isInf h, hb.2]

theorem NonNeg.addFinite_nonNeg (ha : NonNeg a) (hb : NonNeg b) : NonNeg (addFinite a b) := by
  by_cases h0 : f32Value a + f32Value b = 0
  · rw [addFinite_zero h0]
    exact ⟨isNaN_of_isFinite (isFinite_of_isZero (isZero_fPack_zero _)), by simp [ha.2]⟩
  · have hsum : ¬ sumSig a b < 0 := by
      rw [sumSig, scaled, scaled, ha.2, hb.2, if_neg Bool.false_ne_true, if_neg Bool.false_ne_true]
      omega
    rw [addFinite_of_ne_zero h0, decide_eq_false hsum]
    exact ⟨isNaN_fRound _ _ _, fSign_fRound _ _ _⟩

theorem NonNeg.add (ha : NonNeg a) (hb : NonNeg b) : NonNeg (faddWith nan a b) := by
  obtain hi | ⟨hfa, hfb⟩ := ha.inf_or_finite hb
  · rw [ha.add_inf hb hi]
    exact nonNeg_inf
  · rw [faddWith_finite hfa hfb]
    exact ha.addFinite_nonNeg hb

/-- No sum of non-negative values draws a NaN. -/
theorem NonNeg.add_congr (ha : NonNeg a) (hb : NonNeg b) : faddWith nan a b = faddWith nan' a b := by
  obtain hi | ⟨hfa, hfb⟩ := ha.inf_or_finite hb
  · rw [ha.add_inf hb hi, ha.add_inf hb hi]
  · rw [faddWith_finite hfa hfb, faddWith_finite hfa hfb]

theorem NonNeg.isInf_add (ha : NonNeg a) (hb : NonNeg b) (h : isInf a = true ∨ isInf b = true) :
    isInf (faddWith nan a b) = true := by
  rw [ha.add_inf hb h, isInf_fPack_infMag]

theorem isZero_faddWith (ha : isZero a = true) (hb : isZero b = true) :
    isZero (faddWith nan a b) = true := by
  have h0 : f32Value a + f32Value b = 0 := by rw [f32Value_eq_zero.mpr ha, f32Value_eq_zero.mpr hb, add_zero]
  rw [faddWith_finite (isFinite_of_isZero ha) (isFinite_of_isZero hb), addFinite_zero h0, isZero_fPack_zero]

/-! ### Overflow in the sum -/

/-- Infinite, or at least half the least power of two that overflows. -/
def Large (a : F32) : Prop := isInf a = true ∨ 2 ^ 127 ≤ f32Value a

theorem large_of_roundsTo {r : ℝ} (h : RoundsTo r a) (hn : isNaN a = false) (hr : 2 ^ 127 ≤ r) : Large a := by
  obtain hi | hf := isInf_or_isFinite hn
  · exact .inl hi
  · have hval : f32Value 0x7F000000 = 2 ^ 127 := by
      have h1 : fSign 0x7F000000 = false := by decide
      have h2 : fSig 0x7F000000 = 2 ^ 23 := by decide
      have h3 : fUnit 0x7F000000 = 104 := by decide
      rw [f32Value, h1, h2, h3]
      norm_num
    refine .inr (hval ▸ f32Value_le_of_roundsTo h hf (by decide) ?_)
    rw [hval]
    exact_mod_cast hr

theorem large_square (hx : isFinite x = true) (h : 2 ^ 127 ≤ f32Value x ^ 2) : Large (fmulWith nan x x) := by
  refine large_of_roundsTo (fmulWith_rounded hx hx).roundsTo (nonNeg_square (isNaN_of_isFinite hx)).1 ?_
  rw [← sq]
  exact_mod_cast h

theorem Large.add (ha : NonNeg a) (hb : NonNeg b) (h : Large a ∨ Large b) : Large (faddWith nan a b) := by
  obtain hi | ⟨hfa, hfb⟩ := ha.inf_or_finite hb
  · exact .inl (ha.isInf_add hb hi)
  · have hva := ha.value_nonneg
    have hvb := hb.value_nonneg
    have hsum : 2 ^ 127 ≤ f32Value a + f32Value b := by
      obtain (hi | hv) | hi | hv := h
      · rw [isFinite_of_isInf hi] at hfa; cases hfa
      · linarith
      · rw [isFinite_of_isInf hi] at hfb; cases hfb
      · linarith
    rw [faddWith_finite hfa hfb]
    refine large_of_roundsTo (addFinite_rounded (by linarith)).roundsTo (ha.addFinite_nonNeg hb).1 ?_
    exact_mod_cast hsum

/-- Two large values overflow in their sum. -/
theorem Large.isInf_add (ha : NonNeg a) (hb : NonNeg b) (hla : Large a) (hlb : Large b) :
    isInf (faddWith nan a b) = true := by
  obtain hi | ⟨hfa, hfb⟩ := ha.inf_or_finite hb
  · exact ha.isInf_add hb hi
  · have hva := hla.resolve_left (by rw [isInf_of_isFinite hfa]; exact Bool.false_ne_true)
    have hvb := hlb.resolve_left (by rw [isInf_of_isFinite hfb]; exact Bool.false_ne_true)
    have hsum : 2 ^ 128 ≤ (f32Value a : ℝ) + f32Value b := by
      have : 2 ^ 128 ≤ f32Value a + f32Value b := by linarith
      exact_mod_cast this
    rw [faddWith_finite hfa hfb]
    refine (addFinite_rounded (by linarith)).isInf_of_le (le_trans ?_ (hsum.trans (le_abs_self _)))
    norm_num

theorem isInf_square (hx : isFinite x = true) (h : 2 ^ 64 ≤ |f32Value x|) : isInf (fmulWith nan x x) = true := by
  have hR : (2 : ℝ) ^ 64 ≤ |(f32Value x : ℝ)| := by exact_mod_cast h
  refine (fmulWith_rounded hx hx).isInf_of_le ?_
  calc (2 ^ 25 - 1) * 2 ^ 103 ≤ (2 : ℝ) ^ 64 * 2 ^ 64 := by norm_num
    _ ≤ |(f32Value x : ℝ)| * |(f32Value x : ℝ)| := mul_le_mul hR hR (by positivity) (abs_nonneg _)
    _ = |(f32Value x : ℝ) * f32Value x| := (abs_mul _ _).symm

theorem isZero_square (hx : isFinite x = true) (h : |f32Value x| * 2 ^ 75 ≤ 1) : isZero (fmulWith nan x x) = true := by
  have hR : |(f32Value x : ℝ)| ≤ 2 ^ (-75 : ℤ) := by
    have : |(f32Value x : ℝ)| * 2 ^ 75 ≤ 1 := by exact_mod_cast h
    rw [zpow_neg, ← one_div, le_div_iff₀ (by positivity)]
    exact_mod_cast this
  refine (fmulWith_rounded hx hx).isZero_of_le ?_
  calc |(f32Value x : ℝ) * f32Value x| = |(f32Value x : ℝ)| * |(f32Value x : ℝ)| := abs_mul _ _
    _ ≤ 2 ^ (-75 : ℤ) * 2 ^ (-75 : ℤ) := mul_le_mul hR hR (abs_nonneg _) (by positivity)
    _ = 2 ^ (-150 : ℤ) := by rw [← zpow_add₀ two_ne_zero]; norm_num

end Sys2Proof

namespace Sys2Proof.Machine

variable {nan a x y z : F32} {n : ℕ}

/-! ### The length of a sample (R151) -/

/-- The sum of squares of `normalize`, every primitive with the same NaN pattern. -/
def sumSquares (nan x y z : F32) : F32 :=
  faddWith nan (faddWith nan (fmulWith nan x x) (fmulWith nan y y)) (fmulWith nan z z)

theorem nonNeg_sumSquares (hx : isNaN x = false) (hy : isNaN y = false) (hz : isNaN z = false) :
    NonNeg (sumSquares nan x y z) :=
  ((nonNeg_square hx).add (nonNeg_square hy)).add (nonNeg_square hz)

/-- Without a NaN in the sample the patterns at hand do not matter. -/
theorem lengthAt_eq (hx : isNaN x = false) (hy : isNaN y = false) (hz : isNaN z = false) (nan : F32) :
    lengthAt n x y z = fsqrtWith (nanAt (n + 5)) (sumSquares nan x y z) := by
  have hxy : faddWith (nanAt (n + 3)) (fmulWith (nanAt n) x x) (fmulWith (nanAt (n + 1)) y y) =
      faddWith nan (fmulWith nan x x) (fmulWith nan y y) := by
    rw [fmulWith_self_congr hx (nan' := nan), fmulWith_self_congr hy (nan' := nan),
      (nonNeg_square hx).add_congr (nonNeg_square hy)]
  rw [lengthAt, hxy, fmulWith_self_congr hz (nan' := nan), sumSquares,
    ((nonNeg_square hx).add (nonNeg_square hy)).add_congr (nonNeg_square hz)]

theorem isNaN_lengthAt (h : isNaN x = true ∨ isNaN y = true ∨ isNaN z = true) : isNaN (lengthAt n x y z) = true := by
  have hsq {k : ℕ} {a : F32} (ha : isNaN a = true) : isNaN (fmulWith (nanAt k) a a) = true :=
    isNaN_fmulWith (isNaN_nanAt k) (.inl ha)
  rw [lengthAt, fsqrtWith_nan]
  · exact isNaN_nanAt _
  · refine isNaN_faddWith (isNaN_nanAt _) ?_
    obtain h | h | h := h
    · exact .inl (isNaN_faddWith (isNaN_nanAt _) (.inl (hsq h)))
    · exact .inl (isNaN_faddWith (isNaN_nanAt _) (.inr (hsq h)))
    · exact .inr (hsq h)

theorem lengthAt_inf (hx : isNaN x = false) (hy : isNaN y = false) (hz : isNaN z = false)
    (h : isInf (sumSquares nan x y z) = true) : lengthAt n x y z = fPack false infMag := by
  have hs := (nonNeg_sumSquares (nan := nan) hx hy hz).2
  rw [lengthAt_eq hx hy hz nan, fsqrtWith_inf h hs, eq_fPack_of_isInf h, hs]

theorem lengthAt_zero (hx : isNaN x = false) (hy : isNaN y = false) (hz : isNaN z = false)
    (h : isZero (sumSquares nan x y z) = true) : lengthAt n x y z = fPack false 0 := by
  have hs := (nonNeg_sumSquares (nan := nan) hx hy hz).2
  rw [lengthAt_eq hx hy hz nan, fsqrtWith_zero h, eq_fPack_of_isZero h, hs]

/-- The sum is an infinity with one infinite square, or with two large ones. -/
theorem isInf_sumSquares (hx : isNaN x = false) (hy : isNaN y = false) (hz : isNaN z = false) :
    (isInf (fmulWith nan x x) = true ∨ isInf (fmulWith nan y y) = true ∨ isInf (fmulWith nan z z) = true →
      isInf (sumSquares nan x y z) = true) ∧
    (Large (fmulWith nan x x) ∧ Large (fmulWith nan y y) ∨ Large (fmulWith nan x x) ∧ Large (fmulWith nan z z) ∨
      Large (fmulWith nan y y) ∧ Large (fmulWith nan z z) → isInf (sumSquares nan x y z) = true) := by
  have hnx := nonNeg_square (nan := nan) hx
  have hny := nonNeg_square (nan := nan) hy
  have hnz := nonNeg_square (nan := nan) hz
  have hnxy : NonNeg (faddWith nan (fmulWith nan x x) (fmulWith nan y y)) := hnx.add hny
  refine ⟨fun h => ?_, fun h => ?_⟩
  · obtain h | h | h := h
    · exact hnxy.isInf_add hnz (.inl (hnx.isInf_add hny (.inl h)))
    · exact hnxy.isInf_add hnz (.inl (hnx.isInf_add hny (.inr h)))
    · exact hnxy.isInf_add hnz (.inr h)
  · obtain ⟨h1, h2⟩ | ⟨h1, h2⟩ | ⟨h1, h2⟩ := h
    · exact hnxy.isInf_add hnz (.inl (h1.isInf_add hnx hny h2))
    · exact (Large.add hnx hny (.inl h1)).isInf_add hnxy hnz h2
    · exact (Large.add hnx hny (.inr h1)).isInf_add hnxy hnz h2

/-! ### The normalised axes -/

/-- The axes of a sample, each with what it is normalised to. -/
def normalizedAxes (n : ℕ) (x y z : F32) : List (F32 × F32) :=
  let o := (runDraw (normalize x y z) n).1
  [(x, o.1), (y, o.2.1), (z, o.2.2)]

/-- Each axis, of which holds what holds of all three, is divided by the length. -/
theorem mem_normalizedAxes {p : F32 × F32} (h : p ∈ normalizedAxes n x y z) :
    (∀ P : F32 → Prop, P x → P y → P z → P p.1) ∧ ∃ k, p.2 = fdivWith (nanAt k) p.1 (lengthAt n x y z) := by
  rw [normalizedAxes, runDraw_normalize] at h
  simp only [List.mem_cons, List.not_mem_nil, or_false] at h
  obtain rfl | rfl | rfl := h
  · exact ⟨fun _ hx _ _ => hx, _, rfl⟩
  · exact ⟨fun _ _ hy _ => hy, _, rfl⟩
  · exact ⟨fun _ _ _ hz => hz, _, rfl⟩

theorem normalizedAxes_nan (h : isNaN x = true ∨ isNaN y = true ∨ isNaN z = true) :
    ∀ p ∈ normalizedAxes n x y z, isNaN p.2 = true := by
  intro p hp
  obtain ⟨-, k, hk⟩ := mem_normalizedAxes hp
  rw [hk]
  exact isNaN_fdivWith (isNaN_nanAt k) (.inr (isNaN_lengthAt h))

theorem normalizedAxes_inf (hx : isNaN x = false) (hy : isNaN y = false) (hz : isNaN z = false)
    (h : isInf (sumSquares nan x y z) = true) : ∀ p ∈ normalizedAxes n x y z,
      (isInf p.1 = true → isNaN p.2 = true) ∧ (isFinite p.1 = true → p.2 = fPack (fSign p.1) 0) := by
  intro p hp
  obtain ⟨-, k, hk⟩ := mem_normalizedAxes hp
  rw [hk, lengthAt_inf hx hy hz h]
  refine ⟨fun hi => ?_, fun hf => ?_⟩
  · rw [fdivWith_inf_inf hi (isInf_fPack_infMag _)]
    exact isNaN_nanAt k
  · rw [fdivWith_finite_inf hf (isInf_fPack_infMag _), fSign_fPack, Bool.bne_false]

theorem normalizedAxes_overflow (hx : isFinite x = true) (hy : isFinite y = true) (hz : isFinite z = true)
    (h : isInf (sumSquares nan x y z) = true) : ∀ p ∈ normalizedAxes n x y z, p.2 = fPack (fSign p.1) 0 := by
  intro p hp
  obtain ⟨hall, -⟩ := mem_normalizedAxes hp
  have hf : isFinite p.1 = true := hall (isFinite · = true) hx hy hz
  exact (normalizedAxes_inf (isNaN_of_isFinite hx) (isNaN_of_isFinite hy) (isNaN_of_isFinite hz) h p hp).2 hf

theorem normalizedAxes_underflow (hx : isFinite x = true) (hy : isFinite y = true) (hz : isFinite z = true)
    (hx0 : |f32Value x| * 2 ^ 75 ≤ 1) (hy0 : |f32Value y| * 2 ^ 75 ≤ 1) (hz0 : |f32Value z| * 2 ^ 75 ≤ 1) :
    ∀ p ∈ normalizedAxes n x y z,
      (isZero p.1 = true → isNaN p.2 = true) ∧ (isZero p.1 = false → p.2 = fPack (fSign p.1) infMag) := by
  intro p hp
  obtain ⟨hall, k, hk⟩ := mem_normalizedAxes hp
  have hf : isFinite p.1 = true := hall (isFinite · = true) hx hy hz
  have hsum : isZero (sumSquares Config.zero x y z) = true :=
    isZero_faddWith (isZero_faddWith (isZero_square hx hx0) (isZero_square hy hy0)) (isZero_square hz hz0)
  rw [hk, lengthAt_zero (isNaN_of_isFinite hx) (isNaN_of_isFinite hy) (isNaN_of_isFinite hz) hsum]
  refine ⟨fun h => ?_, fun h => ?_⟩
  · rw [fdivWith_zero_zero h (isZero_fPack_zero _)]
    exact isNaN_nanAt k
  · rw [fdivWith_finite_zero hf h (isZero_fPack_zero _), fSign_fPack, Bool.bne_false]

/-- R195: a NaN passes through sum and difference, and through the two wheel speeds. -/
theorem isNaN_velocity {alpha beta : F32} (h : isNaN alpha = true ∨ isNaN beta = true) (n : ℕ) :
    isNaN (runDraw (velocity alpha beta) n).1.1 = true ∧ isNaN (runDraw (velocity alpha beta) n).1.2 = true := by
  have hleft : isNaN (fmulWith (nanAt (n + 1)) Config.vMax (faddWith (nanAt n) alpha (fneg beta))) = true :=
    isNaN_fmulWith (isNaN_nanAt _) (.inr (isNaN_faddWith (isNaN_nanAt _) (by simpa using h)))
  have hright : isNaN (fmulWith (nanAt (n + 3)) Config.vMax (faddWith (nanAt (n + 2)) alpha beta)) = true :=
    isNaN_fmulWith (isNaN_nanAt _) (.inr (isNaN_faddWith (isNaN_nanAt _) h))
  rw [runDraw_velocity]
  exact ⟨isNaN_fmulWith (isNaN_nanAt _) (.inr (isNaN_faddWith (isNaN_nanAt _) (.inl hleft))),
    isNaN_fdivWith (isNaN_nanAt _) (.inl (isNaN_faddWith (isNaN_nanAt _) (.inl hright)))⟩

end Sys2Proof.Machine

namespace Sys2Proof.Proofs

open Sys2Proof.Machine

/-- Settles O60: each clause makes the length a NaN, an infinity or a zero; the zero vector is a case of underflow. -/
theorem degenerateValuesPropagate : Obligations.DegenerateValuesPropagate := by
  refine ⟨fun nan x y z n => ?_, fun alpha beta n h => isNaN_velocity h n⟩
  refine ⟨fun hx hy hz => ?zero, normalizedAxes_nan, fun hx hy hz h => ?inf,
    normalizedAxes_overflow (nan := nan), fun hx hy hz h => ?oneLarge, fun hx hy hz h => ?twoLarge,
    normalizedAxes_underflow⟩
  case zero =>
    have hsmall {a : F32} (ha : isZero a = true) : |f32Value a| * 2 ^ 75 ≤ 1 := by
      rw [f32Value_eq_zero.mpr ha]
      norm_num
    intro p hp
    refine (normalizedAxes_underflow (isFinite_of_isZero hx) (isFinite_of_isZero hy) (isFinite_of_isZero hz) (hsmall hx)
      (hsmall hy) (hsmall hz) p hp).1 ?_
    exact (mem_normalizedAxes hp).1 (isZero · = true) hx hy hz
  case inf =>
    refine normalizedAxes_inf (nan := nan) hx hy hz ((isInf_sumSquares hx hy hz).1 ?_)
    have hsq {a : F32} (ha : isInf a = true) : isInf (fmulWith nan a a) = true := by
      rw [fmulWith_self_inf ha, isInf_fPack_infMag]
    exact h.imp hsq (Or.imp hsq hsq)
  case oneLarge =>
    have hsum := isInf_sumSquares (nan := nan) (isNaN_of_isFinite hx) (isNaN_of_isFinite hy) (isNaN_of_isFinite hz)
    exact normalizedAxes_overflow hx hy hz
      (hsum.1 (h.imp (isInf_square hx) (Or.imp (isInf_square hy) (isInf_square hz))))
  case twoLarge =>
    have hsum := isInf_sumSquares (nan := nan) (isNaN_of_isFinite hx) (isNaN_of_isFinite hy) (isNaN_of_isFinite hz)
    exact normalizedAxes_overflow hx hy hz (hsum.2 (h.imp (And.imp (large_square hx) (large_square hy))
      (Or.imp (And.imp (large_square hx) (large_square hz)) (And.imp (large_square hy) (large_square hz)))))

end Sys2Proof.Proofs
end

section
/-! PROOF. The frame validator (41_frame_validator.md). A step of the CRC register loses nothing, so two sequences of
bytes that differ in one place have different checksums (R131, R139); CORRUPT changes the one byte it names (R80). O7
and O8 follow. -/

namespace Sys2Proof

/-! ### The CRC register loses nothing (R130, R131) -/

section Register

variable {v : CrcVariant}

/-- The bit a shift drops is seen in the top bit of the result, as the reversed polynomial has its top bit set. -/
theorem msb_crcShift (hv : v.revPoly.msb = true) (c : U32) : (crcShift v c).msb = c.getLsbD 0 := by
  rw [crcShift]
  split
  case isTrue hlow => simp [BitVec.msb_ushiftRight, hv, hlow]
  case isFalse hlow => simpa [BitVec.msb_ushiftRight] using hlow

theorem crcShift_injective (hv : v.revPoly.msb = true) : Function.Injective (crcShift v) := by
  intro c d h
  have hlow : c.getLsbD 0 = d.getLsbD 0 := by rw [← msb_crcShift hv, h, msb_crcShift hv]
  have hhigh : c >>> 1 = d >>> 1 := by
    rw [crcShift, crcShift, hlow] at h
    split at h
    · exact (BitVec.xor_left_inj _).mp h
    · exact h
  apply BitVec.eq_of_getLsbD_eq
  rintro (_ | i) -
  · exact hlow
  · simpa [Nat.add_comm] using congrArg (·.getLsbD i) hhigh

theorem crcShifts_injective (hv : v.revPoly.msb = true) (n : ℕ) : Function.Injective (crcShifts v n) := by
  induction n with
  | zero => exact Function.injective_id
  | succ n ih => exact ih.comp (crcShift_injective hv)

theorem crcByte_register_injective (hv : v.revPoly.msb = true) (b : Byte) : Function.Injective (crcByte v · b) :=
  fun _ _ h => (BitVec.xor_left_inj _).mp (crcShifts_injective hv 8 h)

theorem crcByte_byte_injective (hv : v.revPoly.msb = true) (c : U32) : Function.Injective (crcByte v c) := by
  intro a b h
  have hwide : a.setWidth 32 = b.setWidth 32 := (BitVec.xor_right_inj _).mp (crcShifts_injective hv 8 h)
  simpa using congrArg (BitVec.setWidth 8) hwide

theorem foldl_crcByte_injective (hv : v.revPoly.msb = true) (bs : List Byte) :
    Function.Injective fun c => bs.foldl (crcByte v) c := by
  induction bs with
  | nil => exact Function.injective_id
  | cons b bs ih => exact ih.comp (crcByte_register_injective hv b)

/-- R139, for every length: with the bytes before it and after it fixed, the checksum determines a byte. -/
theorem crc32_append_cons_injective (hv : v.revPoly.msb = true) (pre post : List Byte) :
    Function.Injective fun b => crc32 v (pre ++ b :: post) := by
  intro a b h
  simp only [crc32, List.foldl_append, List.foldl_cons] at h
  exact crcByte_byte_injective hv _ (foldl_crcByte_injective hv post ((BitVec.xor_left_inj _).mp h))

/-- R139: replacing one byte by another value changes the checksum. -/
theorem crc32_set_ne (hv : v.revPoly.msb = true) {bs : List Byte} {k : ℕ} (hk : k < bs.length) {b : Byte}
    (hb : b ≠ bs[k]) : crc32 v (bs.set k b) ≠ crc32 v bs := by
  intro h
  have hsplit : bs = bs.take k ++ bs[k] :: bs.drop (k + 1) := by simp
  rw [List.set_eq_take_append_cons_drop, if_pos hk] at h
  exact hb (crc32_append_cons_injective hv _ _ (h.trans (congrArg (crc32 v) hsplit)))

end Register

/-! ### The bytes of a corrupted frame (R80) -/

section Corrupt

variable (F : Frame) (b : Byte) {j k : ℕ}

theorem frameByte_corrupt_same (hk : k < 20) : frameByte (corrupt F k b) k = b := by
  ext i hi
  have h : 152 - 8 * k + i < 160 := by omega
  simp [corrupt, frameByte, h, hi]

/-- The bits of another byte stand below those that CORRUPT changes, or above them. -/
theorem frameByte_corrupt_of_ne (hj : j < 20) (hk : k < 20) (hne : j ≠ k) :
    frameByte (corrupt F k b) j = frameByte F j := by
  ext i hi
  obtain h | h : 152 - 8 * j + i < 152 - 8 * k ∨ 8 ≤ 152 - 8 * j + i - (152 - 8 * k) := by omega
  all_goals simp [corrupt, frameByte, h]

theorem frameBytes_corrupt {n : ℕ} (hn : n ≤ 20) (hk : k < 20) :
    frameBytes (corrupt F k b) n = (frameBytes F n).set k b := by
  apply List.ext_getElem
  · simp [frameBytes]
  · intro j hj _
    have hj : j < n := by simpa [frameBytes] using hj
    simp only [frameBytes, List.getElem_map, List.getElem_range, List.getElem_set]
    split
    case isTrue h => rw [← h, frameByte_corrupt_same F b hk]
    case isFalse h => exact frameByte_corrupt_of_ne F b (by omega) hk (Ne.symm h)

theorem crcField_corrupt (hk : k < 16) : crcField (corrupt F k b) = crcField F := by
  have keep {j : ℕ} (h₁ : 16 ≤ j) (h₂ : j < 20) : frameByte (corrupt F k b) j = frameByte F j :=
    frameByte_corrupt_of_ne F b h₂ (by omega) (by omega)
  simp only [crcField, be32, keep, Nat.reduceLeDiff, Nat.reduceLT, Nat.reduceAdd]

theorem crcComputed_corrupt_ne (hk : k < 16) (hb : b ≠ frameByte F k) :
    crcComputed (corrupt F k b) ≠ crcComputed F := by
  rw [crcComputed, frameBytes_corrupt F b (by decide) (by omega)]
  exact crc32_set_ne (by decide) (by simpa [frameBytes] using hk) (by simpa [frameBytes] using hb)

end Corrupt

/-! ### The decoded sample (R137) -/

theorem decodeSample_of_crcOk {F : Frame} (h : crcOk F = true) :
    decodeSample F = .ok ⟨decide (ctlOf F = 0xFF), modelOf F, xOf F, yOf F, zOf F⟩ := by
  rw [decodeSample, if_pos h]
  rfl

theorem decodeSample_of_not_crcOk {F : Frame} (h : crcOk F = false) : decodeSample F = .error .checksumMismatch := by
  rw [decodeSample, if_neg (Bool.eq_false_iff.mp h)]

theorem decodeSample_encodeSample (c : ControlSample) : decodeSample (encodeSample c) = .ok c := by
  obtain ⟨drive, model, x, y, z⟩ := c
  rw [encodeSample, decodeSample_of_crcOk (crcOk_sealFrame ..)]
  simp only [ctlOf_sealFrame, modelOf_sealFrame, xOf_sealFrame, yOf_sealFrame, zOf_sealFrame]
  cases drive <;> rfl

end Sys2Proof

namespace Sys2Proof.Proofs

/-- Settles O7: the checksum of the first 16 bytes changes with any one of them, and the field compared with it stays. -/
theorem oneByteCorruptionFailsTheChecksum : Obligations.OneByteCorruptionFailsTheChecksum := by
  intro F k b hok hk hb
  rw [← Bool.not_eq_true, crcOk_iff, crcField_corrupt F b hk, ← (crcOk_iff F).mp hok]
  exact crcComputed_corrupt_ne F b hk hb

/-- Settles O8: an encoded sample is a sealed frame, so its check holds and its fields are read back. -/
theorem decodeSampleFollowsTheChecksum : Obligations.DecodeSampleFollowsTheChecksum :=
  ⟨fun _ => ⟨decodeSample_of_not_crcOk, decodeSample_of_crcOk⟩, decodeSample_encodeSample⟩

end Sys2Proof.Proofs
end

section
/-! PROOF. The history FIFO (42_history.md R152 to R157). A window read drops a run of too old entries at the old end and
nothing else; entries that are too old at a time change no window read at that time, wherever the trim of an insert cuts
them. O39 to O42 follow. -/

namespace Sys2Proof.Machine

variable {t u now : ℕ} {h k : List Entry} {e : Entry} {ops : List (Entry × Bool)}

/-! ### The insert (R152, R153) -/

theorem insertEntry_eq (e : Entry) (h : List Entry) : insertEntry e h = e :: h.take 21 :=
  congrArg (e :: ·) (trim_eq_take h)

theorem length_insertEntry (e : Entry) (h : List Entry) : (insertEntry e h).length = min 21 h.length + 1 := by
  rw [insertEntry_eq, List.length_cons, List.length_take]

/-- The trim cuts the old end of the FIFO only. -/
theorem insertEntry_append (e : Entry) (h k : List Entry) :
    insertEntry e (h ++ k) = insertEntry e h ++ k.take (21 - h.length) := by
  rw [insertEntry_eq, insertEntry_eq, List.take_append, List.cons_append]

/-! ### The window as a filter (R154, R155) -/

theorem tooOld_eq_false_iff : tooOld now e = false ↔ now - e.ts ≤ 1000000 := by
  rw [Bool.eq_false_iff, Ne, tooOld_iff, not_lt]

/-- An entry that is too old stays too old. -/
theorem tooOld_mono (htu : t ≤ u) (ht : tooOld t e = true) : tooOld u e = true := by
  rw [tooOld_iff] at ht ⊢
  omega

/-- The scan from the oldest entry stops at one that is fresh; in an ordered history the newer ones are fresh as well. -/
theorem windowedView_eq_filter (hh : newestFirst h) :
    windowedView now h = h.filter fun e => decide (now - e.ts ≤ 1000000) := by
  induction h using List.reverseRecOn with
  | nil => rfl
  | append_singleton h a ih =>
    rw [windowedView_concat]
    split
    case isTrue hold =>
      have hage : ¬ now - a.ts ≤ 1000000 := not_le.mpr ((tooOld_iff now a).mp hold)
      rw [ih (newestFirst_prefix (List.prefix_append h [a]) hh), List.filter_append,
        List.filter_cons_of_neg (by simpa only [decide_eq_true_eq] using hage), List.filter_nil, List.append_nil]
    case isFalse hfresh =>
      have hage : now - a.ts ≤ 1000000 := tooOld_eq_false_iff.mp (Bool.eq_false_iff.mpr hfresh)
      have hnewer : ∀ x ∈ h, a.ts ≤ x.ts := fun x hx =>
        (List.pairwise_append.mp hh).2.2 x hx a (List.mem_singleton_self a)
      refine (List.filter_eq_self.mpr fun x hx => decide_eq_true ?_).symm
      obtain hx | hx := List.mem_append.mp hx
      · have := hnewer x hx
        omega
      · rwa [List.mem_singleton.mp hx]

/-! ### What a window read does not see (R157) -/

/-- A window read drops entries at the old end, each of them too old. -/
theorem exists_windowedView_append (now : ℕ) (h : List Entry) :
    ∃ stale, h = windowedView now h ++ stale ∧ ∀ x ∈ stale, tooOld now x = true := by
  induction h using List.reverseRecOn with
  | nil => exact ⟨[], rfl, by simp⟩
  | append_singleton h a ih =>
    rw [windowedView_concat]
    split
    case isTrue hold =>
      obtain ⟨stale, hsplit, hstale⟩ := ih
      refine ⟨stale ++ [a], ?_, ?_⟩
      · rw [← List.append_assoc, ← hsplit]
      · simpa [or_imp, forall_and, hold] using hstale
    case isFalse => exact ⟨[], by simp, by simp⟩

/-- Too old entries at the old end change no window. -/
theorem windowedView_append_stale (hk : ∀ x ∈ k, tooOld now x = true) :
    windowedView now (h ++ k) = windowedView now h := by
  induction k using List.reverseRecOn with
  | nil => rw [List.append_nil]
  | append_singleton k a ih =>
    rw [← List.append_assoc, windowedView_concat, if_pos (hk a (by simp))]
    exact ih fun x hx => hk x (by simp [hx])

theorem windowedView_windowedView (htu : t ≤ u) (h : List Entry) :
    windowedView u (windowedView t h) = windowedView u h := by
  obtain ⟨stale, hsplit, hstale⟩ := exists_windowedView_append t h
  conv_rhs => rw [hsplit]
  exact (windowedView_append_stale fun x hx => tooOld_mono htu (hstale x hx)).symm

theorem windowedView_insertEntry (u : ℕ) (e : Entry) (h : List Entry) :
    windowedView u (insertEntry e h) = windowedView u (insertEntry e (windowedView u h)) := by
  obtain ⟨stale, hsplit, hstale⟩ := exists_windowedView_append u h
  conv_lhs => rw [hsplit, insertEntry_append]
  exact windowedView_append_stale fun x hx => hstale x (List.mem_of_mem_take hx)

/-- Two histories with the same window at `u` keep the same window at `u` under inserts and window reads up to then. -/
theorem windowedView_insertAll_congr (hu : ∀ p ∈ ops, p.1.ts ≤ u) (hw : windowedView u h = windowedView u k) :
    windowedView u (insertAll ops h) = windowedView u (insertAll ops k) := by
  induction ops generalizing h k with
  | nil => exact hw
  | cons op ops ih =>
    obtain ⟨e, read⟩ := op
    obtain ⟨he, hrest⟩ := List.forall_mem_cons.mp hu
    have hins : windowedView u (insertEntry e h) = windowedView u (insertEntry e k) := by
      rw [windowedView_insertEntry, hw, ← windowedView_insertEntry]
    cases read with
    | false => exact ih hrest hins
    | true =>
      refine ih (h := windowedView e.ts _) (k := windowedView e.ts _) hrest ?_
      rw [windowedView_windowedView he, windowedView_windowedView he, hins]

end Sys2Proof.Machine

namespace Sys2Proof.Proofs

open Sys2Proof.Machine

/-- Settles O39. -/
theorem insertTrimsThenPushes : Obligations.InsertTrimsThenPushes := by
  intro e h
  have hlen := length_insertEntry e h
  exact ⟨insertEntry_eq e h, by omega, by omega, by omega⟩

/-- Settles O40. -/
theorem windowIsTheFreshEntries : Obligations.WindowIsTheFreshEntries := fun _ _ => windowedView_eq_filter

/-- Settles O41: the new entry is of the commit time, so the scan stops at it at the latest; the insert keeps the order,
so the window is the filter by age. -/
theorem windowHoldsTheNewSample : Obligations.WindowHoldsTheNewSample := by
  rintro _ e h hh rfl hpast
  obtain ⟨rest, hw, -⟩ := windowedView_cons_now e (trim h)
  have hfilter := windowedView_eq_filter (now := e.ts) (newestFirst_insertEntry hh hpast)
  have hlen := (windowedView_prefix e.ts (insertEntry e h)).length_le
  rw [length_insertEntry] at hlen
  refine ⟨?head, fun x hx => ?age, ?nonempty, by omega⟩
  case head => rw [insertEntry, hw, List.head?_cons]
  case age =>
    rw [hfilter] at hx
    exact of_decide_eq_true (List.mem_filter.mp hx).2
  case nonempty =>
    rw [insertEntry, hw, List.length_cons]
    omega

/-- Settles O42: what the early read drops is too old at the time of the late one, and neither an insert nor a read in
between brings it back. This needs no order of the history or of the inserts, only that none is later than `u`. -/
theorem earlyEvictionChangesNoWindow : Obligations.EarlyEvictionChangesNoWindow := by
  intro t u ops h _ _ htu _ hops
  exact windowedView_insertAll_congr (fun p hp => (hops p hp).2) (windowedView_windowedView htu h)

end Sys2Proof.Proofs
end

section
/-! PROOF. A NaN in the window of a filter (42_history.md R159, 43_filters.md R171, R172). Every sum and quotient of the
filters works axis by axis, and a NaN passes through each of them. O56 follows. -/

namespace Sys2Proof.Machine

variable {a b c : F32 × F32 × F32} {x y z : F32} {e : Entry} {w : List Entry} {n : ℕ}

/-- Where `a` has a NaN axis, `b` has one too. -/
structure NaNsPass (a b : F32 × F32 × F32) : Prop where
  x : isNaN a.1 = true → isNaN b.1 = true
  y : isNaN a.2.1 = true → isNaN b.2.1 = true
  z : isNaN a.2.2 = true → isNaN b.2.2 = true

theorem NaNsPass.refl (a : F32 × F32 × F32) : NaNsPass a a := ⟨id, id, id⟩

theorem NaNsPass.trans (hab : NaNsPass a b) (hbc : NaNsPass b c) : NaNsPass a c :=
  ⟨hbc.x ∘ hab.x, hbc.y ∘ hab.y, hbc.z ∘ hab.z⟩

/-! ### One operation on each axis -/

theorem nansPass_add_left (a : F32 × F32 × F32) (i j k : ℕ) :
    NaNsPass a (faddWith (nanAt i) a.1 x, faddWith (nanAt j) a.2.1 y, faddWith (nanAt k) a.2.2 z) where
  x h := isNaN_faddWith (isNaN_nanAt i) (.inl h)
  y h := isNaN_faddWith (isNaN_nanAt j) (.inl h)
  z h := isNaN_faddWith (isNaN_nanAt k) (.inl h)

theorem nansPass_add_right (a : F32 × F32 × F32) (i j k : ℕ) :
    NaNsPass (x, y, z) (faddWith (nanAt i) a.1 x, faddWith (nanAt j) a.2.1 y, faddWith (nanAt k) a.2.2 z) where
  x h := isNaN_faddWith (isNaN_nanAt i) (.inr h)
  y h := isNaN_faddWith (isNaN_nanAt j) (.inr h)
  z h := isNaN_faddWith (isNaN_nanAt k) (.inr h)

theorem nansPass_mul (wt : F32) (a : F32 × F32 × F32) (i j k : ℕ) :
    NaNsPass a (fmulWith (nanAt i) wt a.1, fmulWith (nanAt j) wt a.2.1, fmulWith (nanAt k) wt a.2.2) where
  x h := isNaN_fmulWith (isNaN_nanAt i) (.inr h)
  y h := isNaN_fmulWith (isNaN_nanAt j) (.inr h)
  z h := isNaN_fmulWith (isNaN_nanAt k) (.inr h)

theorem nansPass_div (a : F32 × F32 × F32) (d : F32) (i j k : ℕ) :
    NaNsPass a (fdivWith (nanAt i) a.1 d, fdivWith (nanAt j) a.2.1 d, fdivWith (nanAt k) a.2.2 d) where
  x h := isNaN_fdivWith (isNaN_nanAt i) (.inl h)
  y h := isNaN_fdivWith (isNaN_nanAt j) (.inl h)
  z h := isNaN_fdivWith (isNaN_nanAt k) (.inl h)

/-! ### SMA (R171) -/

theorem nansPass_smaSums_start (w : List Entry) (s : F32 × F32 × F32) (n : ℕ) :
    NaNsPass s (runDraw (smaSums w s) n).1 := by
  induction w generalizing s n with
  | nil => exact .refl s
  | cons e w ih =>
    rw [runDraw_smaSums_cons]
    exact (nansPass_add_left s ..).trans (ih ..)

theorem nansPass_smaSums (he : e ∈ w) (s : F32 × F32 × F32) : NaNsPass e.axes (runDraw (smaSums w s) n).1 := by
  induction he generalizing s n with
  | head w =>
    rw [runDraw_smaSums_cons]
    refine .trans ?_ (nansPass_smaSums_start ..)
    exact nansPass_add_right s ..
  | tail d _ ih =>
    rw [runDraw_smaSums_cons]
    exact ih _

theorem nansPass_sma (he : e ∈ w) : NaNsPass e.axes (runDraw (sma w) n).1 := by
  rw [runDraw_sma]
  exact (nansPass_smaSums he _).trans (nansPass_div ..)

/-! ### EMA (R172) -/

/-- The component sums of EMA, without the sum of weights. -/
def axisSums (s : F32 × F32 × F32 × F32) : F32 × F32 × F32 := (s.1, s.2.1, s.2.2.1)

theorem nansPass_emaSums_start (q : F32) (w : List Entry) (wt : F32) (s : F32 × F32 × F32 × F32) (n : ℕ) :
    NaNsPass (axisSums s) (axisSums (runDraw (emaSums q w wt s) n).1) := by
  induction w generalizing wt s n with
  | nil => exact .refl _
  | cons e w ih =>
    rw [runDraw_emaSums_cons]
    refine .trans ?_ (ih ..)
    exact nansPass_add_left (axisSums s) ..

/-- Whatever the weight is, the product with a NaN is a NaN. -/
theorem nansPass_emaSums (he : e ∈ w) (q wt : F32) (s : F32 × F32 × F32 × F32) :
    NaNsPass e.axes (axisSums (runDraw (emaSums q w wt s) n).1) := by
  induction he generalizing wt s n with
  | head w =>
    rw [runDraw_emaSums_cons]
    refine .trans ?_ (nansPass_emaSums_start ..)
    exact (nansPass_mul wt e.axes ..).trans (nansPass_add_right (axisSums s) ..)
  | tail d _ ih =>
    rw [runDraw_emaSums_cons]
    exact ih _ _

theorem nansPass_ema (he : e ∈ w) : NaNsPass e.axes (runDraw (ema w) n).1 := by
  rw [runDraw_ema]
  exact (nansPass_emaSums he ..).trans (nansPass_div ..)

end Sys2Proof.Machine

namespace Sys2Proof.Proofs

open Sys2Proof.Machine

/-- Settles O56: the axes of every entry of the window reach the sums, and the sums the quotients. -/
theorem nanEntriesPoisonTheFilters : Obligations.NaNEntriesPoisonTheFilters := by
  intro w e n he
  have hsma : NaNsPass e.axes (runDraw (sma w) n).1 := nansPass_sma he
  have hema : NaNsPass e.axes (runDraw (ema w) n).1 := nansPass_ema he
  exact ⟨fun h => ⟨hsma.x h, hema.x h⟩, fun h => ⟨hsma.y h, hema.y h⟩, fun h => ⟨hsma.z h, hema.z h⟩⟩

end Sys2Proof.Proofs
end

section
/-! PROOF. The filters of a window of one sample (43_filters.md R171, R172). A binary32 value is its own rounding, so the
product with one and the quotient by one are exact; the sum from +0 is exact but for −0, which becomes +0. Both filters
are the sum from +0 divided by a weight of one. O55 follows. -/

namespace Sys2Proof

open Machine

variable {nan a b : F32}

/-! ### A value is its own rounding -/

/-- The magnitude bits of a number that is the value of some bits. -/
theorem NearMag.eq_of_magVal {m k : ℕ} (h : NearMag (magVal m) k) : k = m := by
  have hd : |magVal k - magVal m| ≤ |magVal m - magVal m| := (h.nearest m).1
  rw [sub_self, abs_zero, abs_nonpos_iff, sub_eq_zero] at hd
  exact magVal_strictMono.injective hd

theorem signFactor_injective : Function.Injective signFactor := Bool.injective_iff.mpr (by norm_num)

/-- The value of a finite `b` rounds to `b`; the sign of a zero is the one that the operation gives it. -/
theorem Rounded.eq_of_f32Value {s : Bool} (h : Rounded (f32Value b) s a) (hb : isFinite b = true)
    (hs : isZero b = true → s = fSign b) : a = b := by
  obtain ⟨hx, k, rfl, hk⟩ := h
  rw [abs_f32Value] at hx hk
  obtain rfl := hk.eq_of_magVal
  have hsign : s = fSign b := by
    by_cases hz : isZero b = true
    · exact hs hz
    · have hm : magVal (fMag b) ≠ 0 := by rwa [Ne, magVal_eq_zero, ← isZero_iff]
      rw [f32Value_eq, mul_left_inj' hm] at hx
      exact (signFactor_injective hx).symm
  rw [min_eq_left ((isFinite_iff b).mp hb).le, hsign, fPack_sign_mag]

/-! ### Zero and one as operands -/

@[simp] theorem fSign_zero : fSign Config.zero = false := by decide

@[simp] theorem fSign_one : fSign Config.one = false := by decide

theorem f32Value_zero : f32Value Config.zero = 0 := f32Value_eq_zero.mpr (by decide)

theorem f32Value_one : f32Value Config.one = 1 := by
  have hsig : fSig Config.one = 2 ^ 23 := by decide
  have hunit : fUnit Config.one = -23 := by decide
  rw [f32Value, hsig, hunit, fSign_one]
  norm_num

/-- The value itself, but +0 for −0. -/
def positiveZero (a : F32) : F32 := if a = 0x80000000#32 then 0x00000000#32 else a

theorem positiveZero_of_isZero (h : isZero a = true) : positiveZero a = Config.zero := by
  obtain rfl | rfl := isZero_iff_eq.mp h <;> rfl

theorem positiveZero_of_not_isZero (h : isZero a = false) : positiveZero a = a :=
  if_neg fun ha => by rw [ha] at h; cases h

theorem isNaN_positiveZero (h : isNaN a = false) : isNaN (positiveZero a) = false := by
  unfold positiveZero
  split
  · rfl
  · exact h

/-- R103: an exact zero sum is +0, so the sum from +0 is exact but for −0. -/
theorem faddWith_zero_left (ha : isNaN a = false) : faddWith nan Config.zero a = positiveZero a := by
  have h0 : isFinite Config.zero = true := by decide
  obtain hi | hf := isInf_or_isFinite ha
  · rw [faddWith_inf_right (by decide) hi (fun h => by cases h), positiveZero_of_not_isZero (isZero_of_isInf hi)]
  have hsum : f32Value Config.zero + f32Value a = f32Value a := by rw [f32Value_zero, zero_add]
  rw [faddWith_finite h0 hf]
  cases hz : isZero a
  · have hne : f32Value Config.zero + f32Value a ≠ 0 := by
      rw [hsum, Ne, f32Value_eq_zero, hz]
      decide
    have hr := addFinite_rounded hne
    rw [← Rat.cast_add, hsum] at hr
    rw [positiveZero_of_not_isZero hz, hr.eq_of_f32Value hf fun h => by rw [hz] at h; cases h]
  · rw [addFinite_zero (by rw [hsum, f32Value_eq_zero, hz]), positiveZero_of_isZero hz, fSign_zero, Bool.false_and]
    rfl

theorem fmulWith_one_left (ha : isNaN a = false) : fmulWith nan Config.one a = a := by
  have hsign : (fSign Config.one != fSign a) = fSign a := by simp
  obtain hi | hf := isInf_or_isFinite ha
  · rw [fmulWith_inf (by decide) ha (.inr hi) (by decide) (isZero_of_isInf hi), hsign, ← eq_fPack_of_isInf hi]
  · have hr := fmulWith_rounded (nan := nan) (by decide : isFinite Config.one = true) hf
    rw [f32Value_one, Rat.cast_one, one_mul] at hr
    exact hr.eq_of_f32Value hf fun _ => hsign

theorem fdivWith_one_right (ha : isNaN a = false) : fdivWith nan a Config.one = a := by
  have hsign : (fSign a != fSign Config.one) = fSign a := by simp
  have h1 : isFinite Config.one = true := by decide
  obtain hi | hf := isInf_or_isFinite ha
  · rw [fdivWith_inf_finite hi h1, hsign, ← eq_fPack_of_isInf hi]
  · have hr := fdivWith_rounded (nan := nan) hf h1 (by decide)
    rw [f32Value_one, Rat.cast_one, div_one] at hr
    exact hr.eq_of_f32Value hf fun _ => hsign

end Sys2Proof

namespace Sys2Proof.Machine

variable {e : Entry}

/-! ### The filters of one sample -/

theorem toF32_one : toF32 1 = Config.one := by decide

/-- The axes of a sample, but +0 for −0. -/
def positiveZeroAxes (e : Entry) : F32 × F32 × F32 := (positiveZero e.ax, positiveZero e.ay, positiveZero e.az)

/-- R171: the sums from +0, divided by the count one. -/
theorem sma_singleton (hx : isNaN e.ax = false) (hy : isNaN e.ay = false) (hz : isNaN e.az = false) (n : ℕ) :
    (runDraw (sma [e]) n).1 = positiveZeroAxes e := by
  simp only [runDraw_sma, runDraw_smaSums_cons, runDraw_smaSums_nil, List.length_singleton, toF32_one,
    faddWith_zero_left, fdivWith_one_right, isNaN_positiveZero, hx, hy, hz, positiveZeroAxes]

/-- R172: the newest sample has the weight one, so the sum of weights is one, and the factor of the older ones is not
used. -/
theorem ema_singleton (hx : isNaN e.ax = false) (hy : isNaN e.ay = false) (hz : isNaN e.az = false) (n : ℕ) :
    (runDraw (ema [e]) n).1 = positiveZeroAxes e := by
  have hw (nan : F32) : faddWith nan Config.zero Config.one = Config.one := faddWith_zero_left (by decide)
  simp only [runDraw_ema, runDraw_emaSums_cons, runDraw_emaSums_nil, fmulWith_one_left, hw, faddWith_zero_left,
    fdivWith_one_right, isNaN_positiveZero, hx, hy, hz, positiveZeroAxes]

end Sys2Proof.Machine

namespace Sys2Proof.Proofs

open Sys2Proof.Machine

/-- Settles O55: both filters are exact on a single sample, but for the sign of a zero. -/
theorem filtersOfASingleSample : Obligations.FiltersOfASingleSample :=
  fun _ n hx hy hz => ⟨sma_singleton hx hy hz n, ema_singleton hx hy hz n⟩

end Sys2Proof.Proofs
end

section
/-! PROOF. The reference grid and the bilinear interpolation at its points (44_steering.md R181 to R183). A sum, product
or quotient that is the value of a binary32 value is exact (R102), so at a grid point the interpolation has the point's
reference value; only the sign of a zero is open. O54 and O57 follow. -/

namespace Sys2Proof

open Machine

variable {nan a b c : F32} {p q r : ℚ}

/-! ### Exact results -/

/-- `a` is finite and has the value `q`; a zero of either sign has the value 0. -/
structure HasValue (a : F32) (q : ℚ) : Prop where
  finite : isFinite a = true
  value : f32Value a = q

theorem hasValue_zero : HasValue Config.zero 0 := ⟨by decide, f32Value_zero⟩

theorem hasValue_one : HasValue Config.one 1 := ⟨by decide, f32Value_one⟩

theorem hasValue_ninety : HasValue Config.ninety 90 := by
  have hsign : fSign Config.ninety = false := by decide
  have hsig : fSig Config.ninety = 90 * 2 ^ 17 := by decide
  have hunit : fUnit Config.ninety = -17 := by decide
  refine ⟨by decide, ?_⟩
  rw [f32Value, hsign, hsig, hunit]
  norm_num

/-- A number that is the value of some `c` is its own rounding. -/
theorem Rounded.hasValue {s : Bool} (h : Rounded (q : ℝ) s a) (hc : HasValue c q) : HasValue a q := by
  cases hz : isZero c
  · rw [← hc.value] at h
    rwa [h.eq_of_f32Value hc.finite fun h0 => by rw [hz] at h0; cases h0]
  · have hq : q = 0 := hc.value ▸ f32Value_eq_zero.mpr hz
    have ha : isZero a = true := h.isZero_of_le (by rw [hq, Rat.cast_zero, abs_zero]; positivity)
    exact ⟨isFinite_of_isZero ha, hq ▸ f32Value_eq_zero.mpr ha⟩

theorem HasValue.neg (ha : HasValue a p) : HasValue (fneg a) (-p) := by
  refine ⟨by rw [isFinite_iff, fMag_fneg, ← isFinite_iff, ha.finite], ?_⟩
  have hv : (f32Value (fneg a) : ℝ) = -f32Value a := by
    rw [f32Value_eq, f32Value_eq, fMag_fneg, fSign_fneg]
    cases fSign a <;> simp
  rw [← ha.value]
  exact_mod_cast hv

theorem HasValue.add (ha : HasValue a p) (hb : HasValue b q) (hr : p + q = r) (hc : HasValue c r) :
    HasValue (faddWith nan a b) r := by
  have hsum : f32Value a + f32Value b = r := by rw [ha.value, hb.value, hr]
  rw [faddWith_finite ha.finite hb.finite]
  by_cases h0 : f32Value a + f32Value b = 0
  · have hz : isZero (addFinite a b) = true := by rw [addFinite_zero h0, isZero_fPack_zero]
    exact ⟨isFinite_of_isZero hz, by rw [f32Value_eq_zero.mpr hz, ← hsum, h0]⟩
  · have h := addFinite_rounded h0
    rw [← Rat.cast_add, hsum] at h
    exact h.hasValue hc

theorem HasValue.mul (ha : HasValue a p) (hb : HasValue b q) (hr : p * q = r) (hc : HasValue c r) :
    HasValue (fmulWith nan a b) r := by
  have h := fmulWith_rounded (nan := nan) ha.finite hb.finite
  rw [← Rat.cast_mul, ha.value, hb.value, hr] at h
  exact h.hasValue hc

theorem HasValue.div (ha : HasValue a p) (hb : HasValue b q) (hq : q ≠ 0) (hr : p / q = r) (hc : HasValue c r) :
    HasValue (fdivWith nan a b) r := by
  have hzb : isZero b = false := by
    rw [Bool.eq_false_iff, Ne, ← f32Value_eq_zero, hb.value]
    exact hq
  have h := fdivWith_rounded (nan := nan) ha.finite hb.finite hzb
  rw [← Rat.cast_div, ha.value, hb.value, hr] at h
  exact h.hasValue hc

/-- R108: finite values that are equal compare equal, whatever the sign of a zero. -/
theorem HasValue.feq (ha : HasValue a (f32Value b)) (hb : isFinite b = true) : feq a b = true :=
  (feq_iff (isNaN_of_isFinite ha.finite) (isNaN_of_isFinite hb)).mpr (orderKey_eq_iff.mpr ha.value)

/-! ### The reference values (R181) -/

theorem isFinite_confineFinite (r : F32) : isFinite (confineFinite r) = true := by
  unfold confineFinite
  split
  · assumption
  · decide

theorem gridAlpha_centre : gridAlpha 1 1 = Config.zero := if_pos ⟨rfl, rfl⟩

theorem gridBeta_centre : gridBeta 1 1 = Config.zero := if_pos ⟨rfl, rfl⟩

theorem isFinite_gridAlpha (r c : Fin 3) : isFinite (gridAlpha r c) = true := by
  unfold gridAlpha
  split
  · decide
  · exact isFinite_confineFinite _

theorem isFinite_gridBeta (r c : Fin 3) : isFinite (gridBeta r c) = true := by
  unfold gridBeta
  split
  · decide
  · exact isFinite_confineFinite _

end Sys2Proof

namespace Sys2Proof.Machine

variable {a b s u v angle low : F32} {p : ℚ} {i j : Fin 3 × Fin 3} {k r c : Fin 3} {n : ℕ}

/-! ### Interpolation at an end of a cell (R182) -/

/-- The position `s` in the cell from index `i.1` to index `i.2` is at the end with index `k`. -/
def AtEnd (i : Fin 3 × Fin 3) (k : Fin 3) (s : F32) : Prop :=
  i.1 = k ∧ HasValue s 0 ∨ i.2 = k ∧ HasValue s 1

/-- At an end of a cell the interpolation has the value of that end. -/
theorem AtEnd.lerp (h : AtEnd i k s) {f : Fin 3 → ℚ} (ha : HasValue a (f i.1)) (hb : HasValue b (f i.2)) (n : ℕ) :
    HasValue (lerpAt n a b s) (f k) := by
  unfold lerpAt
  obtain ⟨rfl, hs⟩ | ⟨rfl, hs⟩ := h
  · have hrest : HasValue (faddWith (nanAt n) Config.one (fneg s)) 1 :=
      hasValue_one.add hs.neg (by norm_num) hasValue_one
    exact (hrest.mul ha (one_mul _) ha).add (hs.mul hb (zero_mul _) hasValue_zero) (add_zero _) ha
  · have hrest : HasValue (faddWith (nanAt n) Config.one (fneg s)) 0 :=
      hasValue_one.add hs.neg (by norm_num) hasValue_zero
    exact (hrest.mul ha (zero_mul _) hasValue_zero).add (hs.mul hb (one_mul _) hb) (zero_add _) hb

/-- At a corner of a cell both interpolations, along phi and then along theta, have the values of that corner. -/
theorem bilinearOf_corner {g : Fin 3 → Fin 3 → F32} (hg : ∀ r c, isFinite (g r c) = true) (hr : AtEnd i r u)
    (hc : AtEnd j c v) (n : ℕ) : HasValue (runDraw (bilinearOf g i j u v) n).1 (f32Value (g r c)) := by
  have hval (r c : Fin 3) : HasValue (g r c) (f32Value (g r c)) := ⟨hg r c, rfl⟩
  have hlo := hr.lerp (f := fun k => f32Value (g k j.1)) (hval _ _) (hval _ _) n
  have hhi := hr.lerp (f := fun k => f32Value (g k j.2)) (hval _ _) (hval _ _) (n + 4)
  rw [runDraw_bilinearOf]
  exact hc.lerp (f := fun k => f32Value (g r k)) hlo hhi (n + 8)

/-! ### The position of a grid point in its cell (R182, R183) -/

theorem unitAt_low (ha : HasValue angle p) (hl : HasValue low p) : HasValue (unitAt n angle low) 0 :=
  (ha.add hl.neg (add_neg_cancel p) hasValue_zero).div hasValue_ninety (by norm_num) (zero_div _) hasValue_zero

theorem unitAt_high (ha : HasValue angle 90) (hl : HasValue low 0) : HasValue (unitAt n angle low) 1 :=
  (ha.add hl.neg (by norm_num) hasValue_ninety).div hasValue_ninety (by norm_num) (by norm_num) hasValue_one

/-- R183: −90 is the lower end of its cell, 0 the lower and 90 the upper end of theirs. -/
theorem atEnd_gridPhi (n : ℕ) (k : Fin 3) :
    AtEnd (quadrant (Config.gridPhi k)) k
      (unitAt n (Config.gridPhi k) (Config.gridPhi (quadrant (Config.gridPhi k)).1)) := by
  have hneg : quadrant (Config.gridPhi 0) = (0, 1) := by decide
  have hzero : quadrant (Config.gridPhi 1) = (1, 2) := by decide
  have hpos : quadrant (Config.gridPhi 2) = (1, 2) := by decide
  match k with
  | 0 => rw [hneg]; exact .inl ⟨rfl, unitAt_low hasValue_ninety.neg hasValue_ninety.neg⟩
  | 1 => rw [hzero]; exact .inl ⟨rfl, unitAt_low hasValue_zero hasValue_zero⟩
  | 2 => rw [hpos]; exact .inr ⟨rfl, unitAt_high hasValue_ninety hasValue_zero⟩

theorem bilinear_grid (r c : Fin 3) (n : ℕ) :
    HasValue (runDraw (bilinear (Config.gridPhi r) (Config.gridTheta c)) n).1.1 (f32Value (gridAlpha r c)) ∧
    HasValue (runDraw (bilinear (Config.gridPhi r) (Config.gridTheta c)) n).1.2 (f32Value (gridBeta r c)) := by
  have hr := atEnd_gridPhi n r
  have hc := atEnd_gridPhi (n + 2) c
  rw [runDraw_bilinear]
  exact ⟨bilinearOf_corner isFinite_gridAlpha hr hc (n + 4), bilinearOf_corner isFinite_gridBeta hr hc (n + 16)⟩

end Sys2Proof.Machine

namespace Sys2Proof.Proofs

open Sys2Proof.Machine

/-- Settles O54. -/
theorem gridIsFiniteWithZeroCentre : Obligations.GridIsFiniteWithZeroCentre :=
  ⟨fun r c => ⟨isFinite_gridAlpha r c, isFinite_gridBeta r c⟩, gridAlpha_centre, gridBeta_centre⟩

/-- Settles O57: a grid point is a corner of its cell, where each interpolation is exact. -/
theorem bilinearReproducesTheGrid : Obligations.BilinearReproducesTheGrid := by
  intro r c n
  obtain ⟨halpha, hbeta⟩ := bilinear_grid r c n
  exact ⟨halpha.feq (isFinite_gridAlpha r c), hbeta.feq (isFinite_gridBeta r c)⟩

end Sys2Proof.Proofs
end

section
/-! PROOF. Straight up under the IDW codes (44_steering.md R180, R184, R195). The sample (0, 0, 1) is its own
normalisation, and its angles are (+0, +0), the grid's centre. There the weight is +∞ and the reference values are +0,
so a NaN enters the sums, and what enters the sums reaches the velocities. O59 follows. -/

namespace Sys2Proof

open Machine

variable {nan x y : F32}

/-! ### Zeros and ones as operands -/

theorem faddWith_zero_zero : faddWith nan Config.zero Config.zero = Config.zero := faddWith_zero_left (by decide)

theorem faddWith_zero_one : faddWith nan Config.zero Config.one = Config.one := faddWith_zero_left (by decide)

theorem fmulWith_zero_zero : fmulWith nan Config.zero Config.zero = Config.zero := by
  rw [fmulWith_finite (by decide) (by decide)]
  decide

theorem fmulWith_one_one : fmulWith nan Config.one Config.one = Config.one := fmulWith_one_left (by decide)

theorem fsqrtWith_one : fsqrtWith nan Config.one = Config.one := by
  have h := fsqrtWith_rounded (nan := nan) (a := Config.one) (by decide) (by decide) (by decide)
  rw [f32Value_one, Rat.cast_one, Real.sqrt_one, ← Rat.cast_one, ← f32Value_one] at h
  exact h.eq_of_f32Value (by decide) fun _ => fSign_one.symm

/-- `ATAN2_RANGE` on the positive x axis. -/
theorem fnAtan2_zero_left (hy : isZero y = true) (hx : isNaN x = false) (hs : fSign x = false) : fnAtan2 y x = y := by
  obtain ⟨-, haxis, -⟩ := Proofs.atan2HasItsNamedProperties y x
  exact haxis hy hx hs

end Sys2Proof

namespace Sys2Proof.Machine

variable {p phi theta : F32} {l : List (Fin 3 × Fin 3)} {rc : Fin 3 × Fin 3}

/-! ### The sample straight up -/

theorem lengthAt_straightUp (n : ℕ) : lengthAt n Config.zero Config.zero Config.one = Config.one := by
  rw [lengthAt, fmulWith_zero_zero, fmulWith_zero_zero, fmulWith_one_one, faddWith_zero_zero, faddWith_zero_one,
    fsqrtWith_one]

/-- R151: a sample of length one is its own normalisation. -/
theorem normalize_straightUp (n : ℕ) :
    (runDraw (normalize Config.zero Config.zero Config.one) n).1 = (Config.zero, Config.zero, Config.one) := by
  rw [runDraw_normalize, lengthAt_straightUp, fdivWith_one_right (by decide), fdivWith_one_right (by decide),
    fdivWith_one_right (by decide)]

theorem newEntry_straightUp_axes (now n : ℕ) :
    (runDraw (newEntry now Config.zero Config.zero Config.one) n).1.axes = (Config.zero, Config.zero, Config.one) := by
  rw [runDraw_newEntry]
  exact normalize_straightUp n

/-- The example of R180: both angles are +0. -/
theorem angles_straightUp (n : ℕ) :
    (runDraw (angles (Config.zero, Config.zero, Config.one)) n).1 = (Config.zero, Config.zero) := by
  have hphir : fnAtan2 Config.zero Config.one = Config.zero := fnAtan2_zero_left (by decide) (by decide) (by decide)
  have hthr : fnAtan2 (fneg Config.zero) Config.one = fneg Config.zero :=
    fnAtan2_zero_left (by decide) (by decide) (by decide)
  obtain ⟨hsin, hcos⟩ := fnSin_fnCos_zero (a := Config.zero) (by decide)
  have hphi (nan : F32) : fmulWith nan Config.zero Config.rad2deg = Config.zero := by
    rw [fmulWith_finite (by decide) (by decide)]
    decide
  have htheta (nan : F32) : fneg (fmulWith nan (fneg Config.zero) Config.rad2deg) = Config.zero := by
    rw [fmulWith_finite (by decide) (by decide)]
    decide
  simp only [runDraw_angles, hphir, hsin, hcos, fmulWith_zero_zero, fmulWith_one_one, faddWith_zero_one, hthr, hphi,
    htheta]

/-! ### The centre of the grid under IDW (R184) -/

/-- `POW_ZERO`: at the centre the distance is +0, so the weight is +∞. -/
theorem idwWeightAt_centre (hp : flt (fneg p) Config.zero = true) (hodd : isOddInteger (fneg p) = false) (n : ℕ) :
    idwWeightAt n p Config.zero Config.zero (1, 1) = 0x7F800000 := by
  have hphi : Config.gridPhi 1 = Config.zero := rfl
  have htheta : Config.gridTheta 1 = Config.zero := rfl
  have hdiff (k : ℕ) : faddWith (nanAt k) Config.zero (fneg Config.zero) = Config.zero := faddWith_zero_left (by decide)
  have hroot (k : ℕ) : fsqrtWith (nanAt k) Config.zero = Config.zero := fsqrtWith_zero (by decide)
  rw [idwWeightAt, hphi, htheta, hdiff, hdiff, fmulWith_zero_zero, fmulWith_zero_zero, faddWith_zero_zero, hroot,
    fnPow_zero hp hodd]

/-- The terms that a grid point adds to the sums of R184, when the first NaN drawn is the n-th. -/
def idwTerms (n : ℕ) (p phi theta : F32) (rc : Fin 3 × Fin 3) : F32 × F32 × F32 :=
  let w := idwWeightAt n p phi theta rc
  (w, fmulWith (nanAt (n + 7)) w (gridAlpha rc.1 rc.2), fmulWith (nanAt (n + 9)) w (gridBeta rc.1 rc.2))

theorem nansPass_idwSums_start (l : List (Fin 3 × Fin 3)) (s : F32 × F32 × F32) (n : ℕ) :
    NaNsPass s (runDraw (idwSums p phi theta l s) n).1 := by
  induction l generalizing s n with
  | nil => exact .refl s
  | cons rc l ih =>
    rw [runDraw_idwSums_cons]
    exact (nansPass_add_left s ..).trans (ih ..)

/-- What a grid point adds reaches the sums. -/
theorem nansPass_idwSums (h : rc ∈ l) (s : F32 × F32 × F32) (n : ℕ) :
    ∃ m, NaNsPass (idwTerms m p phi theta rc) (runDraw (idwSums p phi theta l s) n).1 := by
  induction h generalizing s n with
  | head l =>
    rw [runDraw_idwSums_cons]
    refine ⟨n, .trans ?_ (nansPass_idwSums_start ..)⟩
    exact nansPass_add_right s ..
  | tail d _ ih =>
    rw [runDraw_idwSums_cons]
    exact ih ..

/-- ∞ · 0 is a NaN (R103). -/
theorem idwTerms_centre (hp : flt (fneg p) Config.zero = true) (hodd : isOddInteger (fneg p) = false) (n : ℕ) :
    isNaN (idwTerms n p Config.zero Config.zero (1, 1)).2.1 = true ∧
    isNaN (idwTerms n p Config.zero Config.zero (1, 1)).2.2 = true := by
  have hnan (k : ℕ) : isNaN (fmulWith (nanAt k) 0x7F800000 Config.zero) = true := by
    rw [fmulWith_zero_inf (.inr (by decide))]
    exact isNaN_nanAt k
  rw [idwTerms, idwWeightAt_centre hp hodd, gridAlpha_centre, gridBeta_centre]
  exact ⟨hnan _, hnan _⟩

theorem isNaN_shepardIDW_centre (hp : flt (fneg p) Config.zero = true) (hodd : isOddInteger (fneg p) = false)
    (n : ℕ) :
    isNaN (runDraw (shepardIDW p Config.zero Config.zero) n).1.1 = true ∧
    isNaN (runDraw (shepardIDW p Config.zero Config.zero) n).1.2 = true := by
  have hmem : ((1, 1) : Fin 3 × Fin 3) ∈ gridPoints := by decide
  obtain ⟨m, hsums⟩ := nansPass_idwSums (p := p) (phi := Config.zero) (theta := Config.zero) hmem
    (Config.zero, Config.zero, Config.zero) n
  obtain ⟨halpha, hbeta⟩ := idwTerms_centre hp hodd m
  rw [runDraw_shepardIDW]
  exact ⟨isNaN_fdivWith (isNaN_nanAt _) (.inl (hsums.y halpha)),
    isNaN_fdivWith (isNaN_nanAt _) (.inl (hsums.z hbeta))⟩

/-- R185: the powers of the two IDW algorithms. -/
theorem isNaN_steer_idw {alg : Algorithm} (h : alg = .shepardLo ∨ alg = .shepardHi) (n : ℕ) :
    isNaN (runDraw (steer alg Config.zero Config.zero) n).1.1 = true ∧
    isNaN (runDraw (steer alg Config.zero Config.zero) n).1.2 = true := by
  obtain rfl | rfl := h
  · exact isNaN_shepardIDW_centre (p := Config.idwPLo) (by decide) (by decide) n
  · exact isNaN_shepardIDW_centre (p := Config.idwPHi) (by decide) (by decide) n

theorem isNaN_steeringOf_straightUp {alg : Algorithm} (h : alg = .shepardLo ∨ alg = .shepardHi) (n : ℕ) :
    isNaN (runDraw (steeringOf alg (Config.zero, Config.zero, Config.one)) n).1.1 = true ∧
    isNaN (runDraw (steeringOf alg (Config.zero, Config.zero, Config.one)) n).1.2 = true := by
  rw [runDraw_steeringOf]
  simp only [angles_straightUp]
  exact isNaN_velocity (.inl (isNaN_steer_idw h _).1) _

/-! ### The drive operation -/

/-- R201: without a filter the velocities are those of the new sample. -/
theorem pipelineAt_none_velocity (alg : Algorithm) (x y z : F32) (s : State) :
    let en := runDraw (newEntry s.now x y z) s.draws
    let r := (pipelineAt alg .none x y z s).1
    (r.v, r.w) = (runDraw (steeringOf alg en.1.axes) en.2).1 := by
  simp only [pipelineAt, runDraw_drivePipeline, runDraw_applyFilter_none]

theorem isNaN_pipelineAt_straightUp {alg : Algorithm} (h : alg = .shepardLo ∨ alg = .shepardHi) (s : State) :
    isNaN (pipelineAt alg .none Config.zero Config.zero Config.one s).1.v = true ∧
    isNaN (pipelineAt alg .none Config.zero Config.zero Config.one s).1.w = true := by
  have hvw := pipelineAt_none_velocity alg Config.zero Config.zero Config.one s
  simp only [newEntry_straightUp_axes] at hvw
  have hnan := isNaN_steeringOf_straightUp h (runDraw (newEntry s.now Config.zero Config.zero Config.one) s.draws).2
  rwa [← hvw] at hnan

end Sys2Proof.Machine

namespace Sys2Proof.Proofs

open Sys2Proof.Machine

/-- Settles O59: both codes are the drive operation with an IDW algorithm and no filter. -/
theorem straightUpUnderIdwSendsNaN : Obligations.StraightUpUnderIdwSendsNaN := by
  intro s rsv i hs hi
  have hop : ∃ alg, (alg = .shepardLo ∨ alg = .shepardHi) ∧
      exec i s = driveOp alg .none Config.zero Config.zero Config.one s := by
    rw [List.mem_cons, List.mem_singleton] at hi
    obtain rfl | rfl := hi
    · exact ⟨.shepardLo, .inl rfl, rfl⟩
    · exact ⟨.shepardHi, .inr rfl, rfl⟩
  obtain ⟨alg, halg, hexec⟩ := hop
  obtain ⟨hv, hw⟩ := isNaN_pipelineAt_straightUp halg s
  rw [hexec, driveOp_of _ _ _ _ _ hs.running hs.now_lt hs.gate_free]
  exact ⟨_, _, _, rfl, driveCommit_out_trace .., hv, hw, rfl⟩

end Sys2Proof.Proofs
end

section
/-! PROOF. The frame rows from a Ready state (45_drive_ops.md R201 to R219). A drive row is the drive operation with the
algorithm and the filter of its model byte, and that operation is the insert, the filter step and the steering. O15 to O19
follow. -/

namespace Sys2Proof.Machine

variable {s : State}

/-- R219. -/
theorem badcrcCommit_eq (s : State) :
    badcrcCommit s = { s with inq := s.inq.tail, out := s.out ++ [.status .errChecksum] } := rfl

/-- R201 to R204: the drive operation of any algorithm and filter, when it commits. -/
theorem driveOp_ready (hs : s.Ready) (alg : Algorithm) (filt : Filter) (x y z : F32) :
    let en := runDraw (newEntry s.now x y z) s.draws
    let o := runDraw (applyFilter filt s.now en.1 (insertEntry en.1 s.hist)) en.2
    let vw := runDraw (steeringOf alg o.1.1) o.2
    driveOp alg filt x y z s = .next { s with
      hist := o.1.2, lastUpdate := s.now, inq := s.inq.tail, draws := vw.2,
      out := s.out ++ driveTrace vw.1.1 vw.1.2 } := by
  simp only [driveOp_of alg filt x y z hs.running hs.now_lt hs.gate_free, driveCommit_eq, pipelineAt,
    runDraw_drivePipeline]

end Sys2Proof.Machine

namespace Sys2Proof.Proofs

open Sys2Proof.Machine

/-- Settles O15: each row is the drive operation without a filter, which hands on the new sample and the history after
the insert. -/
theorem unfilteredDriveResult : Obligations.UnfilteredDriveResult := by
  intro s rsv x y z l4 l5 l6 l7 i alg hs hi
  have hexec : exec i s = driveOp alg .none x y z s := by
    simp only [List.mem_cons, List.not_mem_nil, or_false, Prod.mk.injEq] at hi
    obtain ⟨rfl, rfl⟩ | ⟨rfl, rfl⟩ | ⟨rfl, rfl⟩ | ⟨rfl, rfl⟩ | ⟨rfl, rfl⟩ | ⟨rfl, rfl⟩ | ⟨rfl, rfl⟩ | ⟨rfl, rfl⟩ |
      ⟨rfl, rfl⟩ | ⟨rfl, rfl⟩ | ⟨rfl, rfl⟩ | ⟨rfl, rfl⟩ := hi
    all_goals rfl
  have hop := driveOp_ready hs alg .none x y z
  simp only [runDraw_applyFilter_none] at hop
  exact hexec.trans hop

/-- Settles O16: each row is the drive operation with SMA, which keeps the window it read. -/
theorem smaDriveResult : Obligations.SmaDriveResult := by
  intro s rsv x y z i alg hs hi
  have hexec : exec i s = driveOp alg .sma x y z s := by
    simp only [List.mem_cons, List.not_mem_nil, or_false, Prod.mk.injEq] at hi
    obtain ⟨rfl, rfl⟩ | ⟨rfl, rfl⟩ | ⟨rfl, rfl⟩ | ⟨rfl, rfl⟩ := hi
    all_goals rfl
  have hop := driveOp_ready hs alg .sma x y z
  simp only [runDraw_applyFilter_sma] at hop
  exact hexec.trans hop

/-- Settles O17: each row is the drive operation with EMA, which keeps the window it read. -/
theorem emaDriveResult : Obligations.EmaDriveResult := by
  intro s rsv x y z i alg hs hi
  have hexec : exec i s = driveOp alg .ema x y z s := by
    simp only [List.mem_cons, List.not_mem_nil, or_false, Prod.mk.injEq] at hi
    obtain ⟨rfl, rfl⟩ | ⟨rfl, rfl⟩ | ⟨rfl, rfl⟩ | ⟨rfl, rfl⟩ := hi
    all_goals rfl
  have hop := driveOp_ready hs alg .ema x y z
  simp only [runDraw_applyFilter_ema] at hop
  exact hexec.trans hop

/-- Settles O18: the operation commits from a Ready state, and `stopCommit_eq` says what it writes. -/
theorem stopFrameResult : Obligations.StopFrameResult := by
  intro s _ _ _ _ _ _ hs
  exact (stopOp_of hs.running hs.now_lt hs.gate_free).trans (congrArg _ (stopCommit_eq s))

/-- Settles O19: a rejected frame does not ask for the gate. -/
theorem badCrcFrameResult : Obligations.BadCrcFrameResult := by
  intro s _ _ _ _ _ _ _ hr hn
  exact (badcrcOp_of hr hn).trans (congrArg _ (badcrcCommit_eq s))

end Sys2Proof.Proofs
end

section
/-! PROOF. Straight up under the bilinear and the symbolic codes (44_steering.md R180 to R195, W9). The angles are (+0, +0),
the grid's centre. There both algorithms and the velocity transform compute with +0 and positive constants alone, which
gives +0; the interpolation also reads other grid values, but multiplies them by +0. With a filter the stale entries leave
the window, and the new sample is its own mean. O58 follows. -/

namespace Sys2Proof

open Machine

variable {nan b : F32}

/-! ### Zeros as operands -/

theorem fsubWith_zero_zero : faddWith nan Config.zero (fneg Config.zero) = Config.zero := faddWith_zero_left (by decide)

theorem fdivWith_zero_left (hb : isFinite b = true) (hzb : isZero b = false) (hs : fSign b = false) :
    fdivWith nan Config.zero b = Config.zero := by
  have h := fdivWith_rounded (nan := nan) (a := Config.zero) (by decide) hb hzb
  rw [f32Value_zero, Rat.cast_zero, zero_div, ← Rat.cast_zero, ← f32Value_zero, hs] at h
  exact h.eq_of_f32Value (by decide) fun _ => rfl

theorem fmulWith_zero_right (hb : isFinite b = true) (hs : fSign b = false) :
    fmulWith nan b Config.zero = Config.zero := by
  have h := fmulWith_rounded (nan := nan) (b := Config.zero) hb (by decide)
  rw [f32Value_zero, Rat.cast_zero, mul_zero, ← Rat.cast_zero, ← f32Value_zero, hs] at h
  exact h.eq_of_f32Value (by decide) fun _ => rfl

/-- R103: a product with a zero is a zero, of the one sign or the other. -/
theorem isZero_fmulWith_zero (hb : isFinite b = true) : isZero (fmulWith nan Config.zero b) = true := by
  have h := hasValue_zero.mul (nan := nan) ⟨hb, rfl⟩ (zero_mul _) hasValue_zero
  exact f32Value_eq_zero.mp h.value

/-- R103: +0 and a zero of either sign have the sum +0. -/
theorem faddWith_zero_isZero (hb : isZero b = true) : faddWith nan Config.zero b = Config.zero := by
  rw [faddWith_zero_left (isNaN_of_isFinite (isFinite_of_isZero hb)), positiveZero_of_isZero hb]

end Sys2Proof

namespace Sys2Proof.Machine

variable {b : F32} {alg : Algorithm} {filt : Filter} {now : ℕ} {e : Entry} {h : List Entry}

/-! ### The centre of the grid under the bilinear interpolation (R182) -/

theorem unitAt_zero (n : ℕ) : unitAt n Config.zero Config.zero = Config.zero := by
  rw [unitAt, fsubWith_zero_zero, fdivWith_zero_left (by decide) (by decide) (by decide)]

/-- The interpolation at the lower end, where the value is +0. -/
theorem lerpAt_zero (hb : isFinite b = true) (n : ℕ) : lerpAt n Config.zero b Config.zero = Config.zero := by
  have hrest : faddWith (nanAt n) Config.one (fneg Config.zero) = Config.one := by
    rw [faddWith_finite (by decide) (by decide)]
    decide
  rw [lerpAt, hrest, fmulWith_one_left (by decide), faddWith_zero_isZero (isZero_fmulWith_zero hb)]

theorem bilinearOf_centre {g : Fin 3 → Fin 3 → F32} (hg : ∀ r c, isFinite (g r c) = true) (h0 : g 1 1 = Config.zero)
    (n : ℕ) : (runDraw (bilinearOf g (1, 2) (1, 2) Config.zero Config.zero) n).1 = Config.zero := by
  have hend : AtEnd (1, 2) 1 Config.zero := .inl ⟨rfl, hasValue_zero⟩
  have hhi := hend.lerp (f := fun k => f32Value (g k 2)) ⟨hg 1 2, rfl⟩ ⟨hg 2 2, rfl⟩ (n + 4)
  rw [runDraw_bilinearOf]
  simp only [h0, lerpAt_zero (hg 2 1), lerpAt_zero hhi.finite]

theorem bilinear_centre (n : ℕ) :
    (runDraw (bilinear Config.zero Config.zero) n).1 = (Config.zero, Config.zero) := by
  have hq : quadrant Config.zero = (1, 2) := by decide
  have hphi : Config.gridPhi 1 = Config.zero := rfl
  have htheta : Config.gridTheta 1 = Config.zero := rfl
  simp only [runDraw_bilinear, hq, hphi, htheta, unitAt_zero, bilinearOf_centre isFinite_gridAlpha gridAlpha_centre,
    bilinearOf_centre isFinite_gridBeta gridBeta_centre]

/-! ### Zero angles under the symbolic model (R190) -/

theorem psqrt_zero (n : ℕ) : runDraw (psqrt Config.zero) n = (Config.zero, n + 1) := by
  have habs : fabs Config.zero = Config.zero := by decide
  rw [runDraw_psqrt, habs, fsqrtWith_zero (by decide)]

theorem symbolicAlpha_zero (n : ℕ) : (runDraw (symbolicAlpha Config.zero Config.zero) n).1 = Config.zero := by
  simp only [symbolicAlpha, runDraw_bind, runDraw_fadd, runDraw_fsub, runDraw_fmul, psqrt_zero, faddWith_zero_zero,
    fsubWith_zero_zero, fmulWith_zero_zero]

theorem symbolicBeta_zero (n : ℕ) : (runDraw (symbolicBeta Config.zero Config.zero) n).1 = Config.zero := by
  simp only [symbolicBeta, runDraw_bind, runDraw_fadd, runDraw_fsub, runDraw_fmul, psqrt_zero, faddWith_zero_zero,
    fsubWith_zero_zero, fmulWith_zero_zero]

theorem symbolicModelB_zero (n : ℕ) :
    (runDraw (symbolicModelB Config.zero Config.zero) n).1 = (Config.zero, Config.zero) := by
  have hscale (nan : F32) : fdivWith nan Config.zero Config.symbScale = Config.zero :=
    fdivWith_zero_left (by decide) (by decide) (by decide)
  simp only [runDraw_symbolicModelB, hscale, symbolicAlpha_zero, symbolicBeta_zero]

/-! ### The steering of straight up -/

theorem velocity_zero (n : ℕ) : (runDraw (velocity Config.zero Config.zero) n).1 = (Config.zero, Config.zero) := by
  have hdiv (nan : F32) : fdivWith nan Config.zero Config.rotDiv = Config.zero :=
    fdivWith_zero_left (by decide) (by decide) (by decide)
  have hmax (nan : F32) : fmulWith nan Config.vMax Config.zero = Config.zero :=
    fmulWith_zero_right (by decide) (by decide)
  have htrans (nan : F32) : fmulWith nan Config.transScale Config.zero = Config.zero :=
    fmulWith_zero_right (by decide) (by decide)
  simp only [runDraw_velocity, faddWith_zero_zero, fsubWith_zero_zero, hmax, htrans, hdiv]

/-- W9: the angles of straight up are those of the grid's centre, where both algorithms answer (+0, +0). -/
theorem steeringOf_straightUp (halg : alg = .bilinear ∨ alg = .symbolicModelB) (n : ℕ) :
    (runDraw (steeringOf alg (Config.zero, Config.zero, Config.one)) n).1 = (Config.zero, Config.zero) := by
  have hsteer (m : ℕ) : (runDraw (steer alg Config.zero Config.zero) m).1 = (Config.zero, Config.zero) := by
    obtain rfl | rfl := halg
    · exact bilinear_centre m
    · exact symbolicModelB_zero m
  simp only [runDraw_steeringOf, angles_straightUp, hsteer, velocity_zero]

/-! ### The filters on a stale history -/

/-- R155: when every entry of the history is too old, the window holds the new sample alone. -/
theorem windowedView_insertEntry_stale (hts : e.ts = now) (hold : ∀ x ∈ h, tooOld now x = true) :
    windowedView now (insertEntry e h) = [e] := by
  have hkeep : tooOld now e = false := by simp [tooOld, hts]
  have hstale : ∀ x ∈ trim h, tooOld now x = true := fun x hx => hold x ((trim_prefix h).subset hx)
  calc windowedView now ([e] ++ trim h)
      = windowedView now ([] ++ [e]) := windowedView_append_stale hstale
    _ = [e] := by rw [windowedView_concat, hkeep]; rfl

/-- R170 to R172: the orientation straight up is its own mean. -/
theorem applyFilter_straightUp (haxes : e.axes = (Config.zero, Config.zero, Config.one)) (hts : e.ts = now)
    (hf : filt = .none ∨ ∀ x ∈ h, tooOld now x = true) (n : ℕ) :
    (runDraw (applyFilter filt now e (insertEntry e h)) n).1.1 = (Config.zero, Config.zero, Config.one) := by
  obtain ⟨hx, hy, hz⟩ : e.ax = Config.zero ∧ e.ay = Config.zero ∧ e.az = Config.one := by
    simpa only [Entry.axes, Prod.mk.injEq] using haxes
  obtain ⟨hnx, hny, hnz⟩ : isNaN e.ax = false ∧ isNaN e.ay = false ∧ isNaN e.az = false := by
    rw [hx, hy, hz]
    decide
  have hmean : positiveZeroAxes e = (Config.zero, Config.zero, Config.one) := by
    rw [positiveZeroAxes, hx, hy, hz]
    decide
  cases filt with
  | none => rw [runDraw_applyFilter_none, haxes]
  | sma =>
    have hw := windowedView_insertEntry_stale hts (hf.resolve_left Filter.noConfusion)
    rw [runDraw_applyFilter_sma, hw]
    exact (sma_singleton hnx hny hnz n).trans hmean
  | ema =>
    have hw := windowedView_insertEntry_stale hts (hf.resolve_left Filter.noConfusion)
    rw [runDraw_applyFilter_ema, hw]
    exact (ema_singleton hnx hny hnz n).trans hmean

/-! ### The drive operation -/

theorem driveOp_straightUp {s : State} (hs : s.Ready) (halg : alg = .bilinear ∨ alg = .symbolicModelB)
    (hf : filt = .none ∨ ∀ x ∈ s.hist, tooOld s.now x = true) :
    ∃ t, driveOp alg filt Config.zero Config.zero Config.one s = .next t ∧
      t.out = s.out ++ driveTrace Config.zero Config.zero := by
  have haxes := newEntry_straightUp_axes s.now s.draws
  have hts := newEntry_ts s.now Config.zero Config.zero Config.one s.draws
  refine ⟨_, driveOp_ready hs alg filt Config.zero Config.zero Config.one, ?_⟩
  simp only [applyFilter_straightUp haxes hts hf, steeringOf_straightUp halg]

end Sys2Proof.Machine

namespace Sys2Proof.Proofs

open Sys2Proof.Machine

/-- Settles O58: each code is the drive operation with the bilinear or the symbolic algorithm, without a filter or on a
stale history. -/
theorem straightUpStandsStill : Obligations.StraightUpStandsStill := by
  intro s rsv l4 l5 l6 l7 i hs hi
  have hop : ∃ alg filt, (alg = .bilinear ∨ alg = .symbolicModelB) ∧
      (filt = .none ∨ ∀ x ∈ s.hist, tooOld s.now x = true) ∧
      exec i s = driveOp alg filt Config.zero Config.zero Config.one s := by
    simp only [List.mem_cons, List.not_mem_nil, or_false] at hi
    obtain hi | ⟨hage, hi⟩ := hi
    · obtain rfl | rfl | rfl | rfl | rfl | rfl | rfl | rfl | rfl | rfl := hi
      iterate 9 exact ⟨.bilinear, .none, .inl rfl, .inl rfl, rfl⟩
      exact ⟨.symbolicModelB, .none, .inr rfl, .inl rfl, rfl⟩
    · have hold : ∀ x ∈ s.hist, tooOld s.now x = true := fun x hx => (tooOld_iff ..).mpr (hage x hx)
      obtain rfl | rfl | rfl | rfl := hi
      · exact ⟨.bilinear, .sma, .inl rfl, .inr hold, rfl⟩
      · exact ⟨.bilinear, .ema, .inl rfl, .inr hold, rfl⟩
      · exact ⟨.symbolicModelB, .sma, .inr rfl, .inr hold, rfl⟩
      · exact ⟨.symbolicModelB, .ema, .inr rfl, .inr hold, rfl⟩
  obtain ⟨alg, filt, halg, hf, hexec⟩ := hop
  rw [hexec]
  exact driveOp_straightUp hs halg hf

end Sys2Proof.Proofs
end

section
/-! PROOF. The watchdog (46_watchdog.md R230 to R234). TICK is the fresh or the stale check (O21), and of all commits only
a check or a RESET writes the schedule (O37). A block that is left alone goes from deadline to deadline: a fresh check and
the wait after it are two steps that move time and schedule by one period, so the first stale check, which is at most one
period beyond the timeout, sends the STOP (O38). -/

namespace Sys2Proof.Machine

variable {s t : State} {i : Instr} {d : Nat}

/-! ### The two checks (R231) -/

theorem tickOp_fresh (hr : s.run = .running) (hn : s.now < Config.timeLimit) (hd : nextCheck s < Config.timeLimit)
    (hs : s.now - s.lastUpdate ≤ Config.wdtTimeout) : tickOp s = .next { s with nextDeadline := nextCheck s } := by
  have hfresh : ¬stale s.now s.lastUpdate = true := by simpa [stale] using hs
  rw [tickOp, whenRunning_of hr hn, if_neg (Nat.not_le.mpr hd), if_neg hfresh]

theorem tickOp_stale (hr : s.run = .running) (hn : s.now < Config.timeLimit) (hg : s.gate = .free)
    (hd : nextCheck s < Config.timeLimit) (hs : Config.wdtTimeout < s.now - s.lastUpdate) :
    tickOp s = .next ({ s with nextDeadline := nextCheck s }.emit (bracket [.stop])) := by
  have hstale : stale s.now s.lastUpdate = true := decide_eq_true hs
  rw [tickOp, whenRunning_of hr hn, if_neg (Nat.not_le.mpr hd), if_pos hstale, whenGateFree_of hg]

/-! ### What writes the schedule (R232) -/

/-- R232: an instruction that commits leaves the schedule, moves it by one period, or is a RESET. -/
theorem Committed.nextDeadline (h : Committed i s t) :
    t.nextDeadline = s.nextDeadline ∨ t.nextDeadline = nextCheck s ∨ (i = .reset ∧ t = resetCommit s) := by
  cases h with
  | held | drive | stop | badcrc | shutdown => exact .inl rfl
  | staleTick | freshTick => exact .inr (.inl rfl)
  | reset hi => exact .inr (.inr ⟨hi, rfl⟩)

/-! ### A block on its own (log 3) -/

/-- The block runs and is left alone: no move of the world is listed, no event and no RESET waits, and the gate is Free. -/
structure State.Alone (s : State) : Prop where
  env_nil : s.env = []
  inq_nil : s.inq = []
  running : s.run = .running
  gate_free : s.gate = .free
  no_reset : s.resetReq = false

/-- With nothing pending, what is due is the tick, from its deadline on (R230). -/
theorem State.Alone.nextDue_eq (h : s.Alone) :
    nextDue s = if s.nextDeadline ≤ s.now then some ⟨.tick, s.nextDeadline⟩ else none := by
  have hhead : headDue s = none := by rw [headDue, h.inq_nil]
  simp [nextDue, h.no_reset, h.running, hhead, tickDue_iff, tickEvent, decodeEvent]

/-- Before the deadline, time passes to it. -/
theorem State.Alone.step_before_deadline (h : s.Alone) (hd : s.now < s.nextDeadline)
    (hl : s.nextDeadline < Config.timeLimit) : step s = .next { s with now := s.nextDeadline } := by
  have hnone : nextDue s = none := h.nextDue_eq.trans (if_neg (Nat.not_le.mpr hd))
  calc step s
      = runFree s := by simp only [step, h.env_nil]
    _ = advanceTo s s.nextDeadline := by simp only [runFree, hnone, h.running, if_true, max_eq_right hd.le]
    _ = .next { s with now := s.nextDeadline } := advanceTo_of_le hd.le hl

/-- At the deadline the tick commits: it is in time whatever the latency bound. -/
theorem State.Alone.step_at_deadline (h : s.Alone) (hd : s.now = s.nextDeadline) : step s = tickOp s := by
  have hdue : nextDue s = some ⟨.tick, s.nextDeadline⟩ := h.nextDue_eq.trans (if_pos hd.ge)
  have hl : withinLatency s ⟨.tick, s.nextDeadline⟩ = true := withinLatency_of_le (hd.le.trans (Nat.le_add_right ..))
  rw [step_of_due h.env_nil hdue, commitNext_of_due hdue, if_pos hl]
  rfl

/-! ### From deadline to deadline -/

/-- The state `s` when time stands at the deadline `d`. -/
def State.onDeadline (s : State) (d : Nat) : State := { s with now := d, nextDeadline := d }

theorem State.Alone.onDeadline (h : s.Alone) (d : Nat) : (s.onDeadline d).Alone := { h with }

/-- A fresh check, then the wait for the next deadline. -/
theorem State.Alone.runSteps_fresh (h : s.Alone) (hs : d ≤ s.lastUpdate + 300000) (hl : d + 50000 < 2 ^ 64) (k : Nat) :
    runSteps (k + 2) (s.onDeadline d) = runSteps k (s.onDeadline (d + 50000)) := by
  have hcheck : step (s.onDeadline d) = .next { s.onDeadline d with nextDeadline := d + 50000 } :=
    ((h.onDeadline d).step_at_deadline rfl).trans
      (tickOp_fresh h.running (show d < 2 ^ 64 by omega) hl (Nat.sub_le_iff_le_add'.mpr hs))
  have hmoved : ({ s.onDeadline d with nextDeadline := d + 50000 } : State).Alone := { h with }
  have hwait : step { s.onDeadline d with nextDeadline := d + 50000 } = .next (s.onDeadline (d + 50000)) :=
    hmoved.step_before_deadline (show d < d + 50000 by omega) hl
  rw [runSteps_succ _ hcheck, runSteps_succ _ hwait]

/-- `m` fresh checks in a row: the last of them is at the latest at the timeout. -/
theorem State.Alone.runSteps_freshChecks (h : s.Alone) (hl : s.lastUpdate + 350000 < 2 ^ 64) (m : Nat)
    (hs : d + m * 50000 ≤ s.lastUpdate + 350000) :
    runSteps (2 * m) (s.onDeadline d) = .next (s.onDeadline (d + m * 50000)) := by
  induction m generalizing d with
  | zero => simp
  | succ m ih =>
    have hnext : d + (m + 1) * 50000 = d + 50000 + m * 50000 := by ring
    rw [hnext] at hs ⊢
    calc runSteps (2 * m + 2) (s.onDeadline d)
        = runSteps (2 * m) (s.onDeadline (d + 50000)) := h.runSteps_fresh (by omega) (by omega) _
      _ = .next (s.onDeadline (d + 50000 + m * 50000)) := ih hs

/-- From any time up to the next deadline, the block comes to each deadline up to one period beyond the timeout, and
nothing but time and schedule has changed. -/
theorem State.Alone.exists_runSteps_onDeadline (h : s.Alone) (hl : s.lastUpdate + 350000 < 2 ^ 64)
    (hd : s.now ≤ s.nextDeadline) {m : Nat} (hs : s.nextDeadline + m * 50000 ≤ s.lastUpdate + 350000) :
    ∃ k, runSteps k s = .next (s.onDeadline (s.nextDeadline + m * 50000)) := by
  have hrun := h.runSteps_freshChecks hl m hs
  obtain hd | hd := hd.lt_or_eq
  · have hwait : step s = .next (s.onDeadline s.nextDeadline) :=
      h.step_before_deadline hd (show s.nextDeadline < 2 ^ 64 by omega)
    exact ⟨2 * m + 1, (runSteps_succ _ hwait).trans hrun⟩
  · have hnow : s.onDeadline s.nextDeadline = s := congrArg (fun u => { s with now := u }) hd.symm
    exact ⟨2 * m, hnow ▸ hrun⟩

/-- At a deadline beyond the timeout the STOP is sent. -/
theorem State.Alone.step_stale (h : s.Alone) (hs : s.lastUpdate + 300000 < d) (hl : d + 50000 < 2 ^ 64) :
    step (s.onDeadline d) =
      .next ({ s.onDeadline d with nextDeadline := d + 50000 }.emit (bracket [.stop])) :=
  ((h.onDeadline d).step_at_deadline rfl).trans
    (tickOp_stale h.running (show d < 2 ^ 64 by omega) h.gate_free hl (Nat.lt_sub_iff_add_lt'.mpr hs))

/-- Of the deadlines from `d` on, one is the first beyond the timeout after `l`, at most one period beyond it (R234). -/
theorem exists_deadline_beyond_timeout {l : Nat} (hd : d ≤ l + 350000) :
    ∃ m, l + 300000 < d + m * 50000 ∧ d + m * 50000 ≤ l + 350000 :=
  ⟨(l + 350000 - d) / 50000, by omega⟩

end Sys2Proof.Machine

namespace Sys2Proof.Proofs

open Sys2Proof.Machine

/-- Settles O38: the block comes to the first deadline beyond the timeout, and the check there is stale. -/
theorem stopLatencyBound : Obligations.StopLatencyBound := by
  intro s hinv he hq hr hg hreq hd hperiod hfresh hrange
  have halone : s.Alone := ⟨he, hq, hr, hg, hreq⟩
  have hlast : s.lastUpdate ≤ s.now := hinv.lastUpdate_le
  obtain ⟨j, -, hj⟩ := hinv.deadline_period
  obtain ⟨m, hlate, hbound⟩ :=
    exists_deadline_beyond_timeout (d := s.nextDeadline) (l := s.lastUpdate) (by omega)
  obtain ⟨k, hrun⟩ := halone.exists_runSteps_onDeadline (by omega) hd hbound
  have hmultiple : s.nextDeadline + m * 50000 = (j + m) * 50000 := by rw [hj, Nat.add_mul]
  exact ⟨k, _, _, hrun, rfl, rfl, rfl, ⟨j + m, hmultiple⟩, halone.step_stale hlate (by omega), rfl, rfl, rfl, hlate,
    hbound⟩

/-- Settles O37: of the steps only a commit writes the schedule, and a RESET commits only if one was asked for. -/
theorem deadlineMovesByOnePeriod : Obligations.DeadlineMovesByOnePeriod := by
  intro s t h
  cases step_next h with
  | commit d hd _ _ hx =>
    obtain hkept | hmoved | ⟨hi, rfl⟩ := (exec_next hx).nextDeadline
    · exact .inl hkept
    · exact .inr (.inl hmoved)
    · exact .inr (.inr ⟨rfl, rfl, nextDue_reset hd hi⟩)
  | same | arrive | reset | advance | gateTake | gateGive => exact .inl rfl

/-- Settles O21: the check is fresh up to the timeout, the boundary included, and stale beyond it. -/
theorem tickResult : Obligations.TickResult := fun _ hr hn hd =>
  ⟨fun hs => tickOp_fresh hr hn hd hs, fun hs hg => tickOp_stale hr hn hg hd hs⟩

end Sys2Proof.Proofs
end

section
/-! PROOF. The session (47_session.md R243, R246, R247). SHUTDOWN is its operation from a Ready state (O22). A waiting RESET
is due now, ahead of everything, so it is in time whatever the latency bound, and a step runs it (O13). Of all commits only
a RESET appends an ENABLE to the trace, and the moves of the world append nothing (O32). -/

namespace Sys2Proof.Machine

variable {s t : State} {i : Instr} {out more : List Output}

/-- R246: the two brackets of SHUTDOWN, written out. -/
theorem shutdownCommit_eq (s : State) :
    shutdownCommit s = { s with
      run := .halted, inq := [],
      out := s.out ++ [.act .gateAcq, .act .stop, .act .gateRel, .act .gateAcq, .act .releaseHw, .act .gateRel] } := rfl

/-! ### A waiting RESET (R247, R264 (d)) -/

theorem nextDue_of_resetReq (hreq : s.resetReq = true) : nextDue s = some ⟨.reset, s.now⟩ := if_pos hreq

/-- A RESET that waits counts as arriving now, so no latency bound refuses it. -/
theorem commitNext_of_resetReq (hreq : s.resetReq = true) : commitNext s = exec .reset s := by
  have hl : withinLatency s ⟨.reset, s.now⟩ = true := withinLatency_of_le (Nat.le_add_right ..)
  rw [commitNext_of_due (nextDue_of_resetReq hreq), if_pos hl]

/-! ### What sends ENABLE (R243) -/

theorem enables_append_of_notMem (h : .act .enable ∉ more) : enables (out ++ more) = enables out := by
  rw [enables, List.count_append, List.count_eq_zero_of_not_mem h]
  rfl

/-- R243: an instruction that commits leaves the number of ENABLE commands, or is a RESET. -/
theorem Committed.enables (h : Committed i s t) :
    enables t.out = enables s.out ∨ (i = .reset ∧ t = resetCommit s) := by
  cases h with
  | reset hi => exact .inr ⟨hi, rfl⟩
  | held | freshTick => exact .inl rfl
  | drive =>
    rw [driveCommit_out_trace]
    exact .inl (enables_append_of_notMem (by simp [driveTrace]))
  | stop =>
    rw [stopCommit_eq]
    exact .inl (enables_append_of_notMem (by decide))
  | badcrc | staleTick | shutdown => exact .inl (enables_append_of_notMem (by decide))

end Sys2Proof.Machine

namespace Sys2Proof.Proofs

open Sys2Proof.Machine

/-- Settles O32: of the steps only a commit sends commands, and a RESET commits only if one was asked for. -/
theorem enableIsSentByResetOnly : Obligations.EnableIsSentByResetOnly := by
  intro s t h
  cases step_next h with
  | commit d hd _ _ hx =>
    obtain hkept | ⟨hi, rfl⟩ := (exec_next hx).enables
    · exact .inl hkept
    · exact .inr ⟨resetCommit_out_trace _, nextDue_reset hd hi, rfl, rfl, rfl, rfl, rfl, rfl, rfl⟩
  | same | arrive | reset | advance | gateTake | gateGive => exact .inl rfl

/-- Settles O13: alone and at a `commit` move the step commits what is due, which is the waiting RESET. -/
theorem resetGoesAheadOfEverything : Obligations.ResetGoesAheadOfEverything := by
  intro s hreq
  have hdue := nextDue_of_resetReq hreq
  refine ⟨hdue, fun he => ?alone, fun rest => ?commit⟩
  case alone => exact (step_of_due he hdue).trans (commitNext_of_resetReq hreq)
  case commit => exact (step_move s .commit rest).trans (commitNext_of_resetReq (s := { s with env := rest }) hreq)

/-- Settles O22: the operation commits from a Ready state, and `shutdownCommit_eq` says what it writes. -/
theorem shutdownResult : Obligations.ShutdownResult := fun s hs =>
  (shutdownOp_of hs.running hs.now_lt hs.gate_free).trans (congrArg _ (shutdownCommit_eq s))

end Sys2Proof.Proofs
end
